-- ==== Sys2Proof/Word.lean ====
section
/-! DEFINITION. The words of the engine: bytes and byte strings (R9), the N(S) bit (R24), the 16-bit CRC
value (R73), the 32-bit correlation id (R28), a 4-byte card identifier (R25), and the input events the
environment delivers (R52). -/

namespace Sys2Proof

/-- An unsigned 8-bit value (R9). -/
abbrev Byte := BitVec 8

/-- A frame or byte string: element 0 is the first byte on the wire (R9, R40). -/
abbrev Bytes := List Byte

/-- One bit, such as N(S) (R24). -/
abbrev Bit := BitVec 1

/-- A 16-bit unsigned value: the CRC register (R10, R73). -/
abbrev Word16 := BitVec 16

/-- The correlation id of an oracle request, a 32-bit unsigned value (R28, D11). -/
abbrev Ident := BitVec 32

/-- A 4-byte card identifier (PUPI) in wire order (R25, R41). -/
structure Uid where
  b0 : Byte
  b1 : Byte
  b2 : Byte
  b3 : Byte
deriving DecidableEq, Repr

/-- Who stops the run: the operator's button or the host (R52, R113). -/
inductive AbortSource where
  | button
  | host
deriving DecidableEq, Repr

/-- The event alphabet of R52. One event is the input of one step (R51). -/
inductive Event where
  /-- `field_present()` returned true. -/
  | fieldOn
  /-- `receive_frame()` returned a frame, CRC bytes included. -/
  | rx (f : Bytes)
  /-- `receive_frame()` returned `None`. -/
  | rxNone
  /-- A reply envelope of the oracle. -/
  | oracleReply (id : Ident) (p : Bytes)
  /-- The environment's WTX budget timer ran out. -/
  | wtxElapsed
  /-- The no-field-timeout loop exit. -/
  | noFieldTimeout
  /-- Operator button or host-signalled abort. -/
  | abort (who : AbortSource)
  /-- The PHY could not encode or allocate a symbol buffer. -/
  | phyFail
deriving DecidableEq, Repr

end Sys2Proof
end

