-- ==== Sys2Proof/Config.lean ====
section
/-! DEFINITION. The configuration record `C` of R7: the block's only control-register set (R29), fixed
before initialisation and read-only afterwards. Every OPEN parameter (D15, D38 to D44) is a field, so a
claim over all states is a claim over all configurations (log entry 4). -/

namespace Sys2Proof

/-- One known file (R31). The byte strings are as the host supplies them; R95 checks them. -/
structure FileEntry where
  fid : Bytes
  selectResp : Bytes
  records : List Bytes
deriving DecidableEq, Repr

/-- One resolvable GET DATA command: the whole APDU and its response (R7 `P_GETDATA_TABLE`, R100). -/
structure GetDataEntry where
  apdu : Bytes
  resp : Bytes
deriving DecidableEq, Repr

/-- The configuration `Cfg` of R7, one field per parameter. -/
structure Cfg where
  /-- `P_DEFAULT_UID` (D38). -/
  defaultUid : Bytes
  /-- `P_HOST_UID`, per session (D38, R118). -/
  hostUid : Option Bytes
  /-- `P_ATQB_APPDATA` (D39). -/
  atqbAppData : Bytes
  /-- `P_ATQB_BITRATE` (D39). -/
  atqbBitRate : Byte
  /-- `P_ATQB_MAXFRAME` (D39). -/
  atqbMaxFrame : Byte
  /-- `P_ATQB_FWI` (D39). -/
  atqbFwi : Byte
  /-- `P_FILE_TABLE` (D40), in table order. -/
  fileTable : List FileEntry
  /-- `P_SW_FILE_NOT_FOUND` (D41). -/
  swFileNotFound : Bytes
  /-- `P_SW_NO_MORE_RECORD` (D41). -/
  swNoMoreRecord : Bytes
  /-- `P_GETDATA_TABLE` (D42), in table order. -/
  getDataTable : List GetDataEntry
  /-- `P_INS_SELECT` (D25). -/
  insSelect : Byte
  /-- `P_INS_READ_RECORD` (D25). -/
  insReadRecord : Byte
  /-- `P_INS_GET_DATA` (D25). -/
  insGetData : Byte
  /-- `P_ATTRIB_OPCODE` (D21). -/
  attribOpcode : Option Byte
  /-- `P_WTX_UNITS` (D43). -/
  wtxUnits : Nat
  /-- `P_WTX_BUDGET` (D44), of the environment: no rule of the machine reads it (R8). -/
  wtxBudget : Nat
  /-- `P_RX_TIMEOUT` (D44), of the environment: no rule of the machine reads it (R8). -/
  rxTimeout : Nat
  /-- `P_NOFIELD_TIMEOUT` (D44), of the environment: no rule of the machine reads it (R8). -/
  noFieldTimeout : Nat
  /-- `P_MAX_FRAME` (D15): the longest frame the PHY delivers (R39). -/
  maxFrame : Nat
deriving DecidableEq, Repr

/-- The configuration of `State.reset`. The `P_INS_*` and `P_ATTRIB_OPCODE` are the decided values of
R7. DESIGN CHOICE (unsafe, log entry 1): R7 leaves every other parameter OPEN; they are zero or empty
here, but for the one entry `3F 04` that R95 item 5 demands and a frame bound of 64. No statement rests
on them. -/
def Cfg.initial : Cfg where
  defaultUid := [0x00, 0x00, 0x00, 0x00]
  hostUid := none
  atqbAppData := [0x00, 0x00, 0x00, 0x00]
  atqbBitRate := 0x00
  atqbMaxFrame := 0x00
  atqbFwi := 0x00
  fileTable := [⟨[0x3F, 0x04], [], []⟩]
  swFileNotFound := []
  swNoMoreRecord := []
  getDataTable := []
  insSelect := 0xA4
  insReadRecord := 0xB2
  insGetData := 0xCA
  attribOpcode := none
  wtxUnits := 0
  wtxBudget := 0
  rxTimeout := 0
  noFieldTimeout := 0
  maxFrame := 64

end Sys2Proof
end

