-- ==== Sys2Proof/Machine/Operands.lean ====
section
/-! DEFINITION. The operand forms of a received frame (R9, R60, R61, R81): the bytes, slices and fields
that the classifier and the rules read. Reading past a frame's end is never done by a rule (R9). -/

namespace Sys2Proof.Machine

/-- `f[i]` of R9. Every use stands behind a test of the length; past the end it is zero (DESIGN CHOICE,
log entry 12). -/
def byteAt (f : Bytes) (i : Nat) : Byte := f.getD i 0

/-- `f[i..j]` of R9, both ends included; empty when `j < i`. -/
def slice (f : Bytes) (i j : Nat) : Bytes := (f.drop i).take (j + 1 - i)

/-- `is_I(f)` of R60: at least three bytes, the first `0x02` or `0x03`. -/
def isIBlock (f : Bytes) : Bool :=
  decide (3 ≤ f.length) && (byteAt f 0 == 0x02 || byteAt f 0 == 0x03)

/-- `ns(f) = f[0] & 0x01` of R60. -/
def nsOf (f : Bytes) : Bit := (byteAt f 0).setWidth 1

/-- `apdu(f) = f[1 .. len(f)-3]` of R60 and R81: the frame without PCB and CRC. -/
def apdu (f : Bytes) : Bytes := slice f 1 (f.length - 3)

/-- `ins(f) = f[2]` of R60, defined only from five bytes on. -/
def ins? (f : Bytes) : Option Byte := if 5 ≤ f.length then some (byteAt f 2) else none

/-- `fid(f)` of R61: the first two data bytes of a SELECT, from ten bytes on. -/
def fid? (f : Bytes) : Option (Byte × Byte) :=
  if 10 ≤ f.length then some (byteAt f 6, byteAt f 7) else none

/-- `addressed(f)` of R55: bit 3 of PARAM. -/
def addressed (f : Bytes) : Bool := (byteAt f 2 &&& 0x08) != 0

/-- The PCB byte of an I-block, `0x02 | ns` (R53, R70). -/
def pcbOf (ns : Bit) : Byte := 0x02 ||| ns.setWidth 8

/-- The I-block with this N(S), APDU and pair of CRC bytes (R60). -/
def iFrame (ns : Bit) (a : Bytes) (c0 c1 : Byte) : Bytes := pcbOf ns :: (a ++ [c0, c1])

/-- The first index of `P_GETDATA_TABLE` whose key is this APDU, as its entry (R64, R100). -/
def findGetData (c : Cfg) (a : Bytes) : Option GetDataEntry :=
  c.getDataTable.find? (fun g => g.apdu == a)

/-- The first index of `P_FILE_TABLE` with this file id (R97: table order, first match wins). -/
def findFile (c : Cfg) (id : Byte × Byte) : Option Nat :=
  c.fileTable.findIdx? (fun e => e.fid == [id.1, id.2])

/-- The four bytes of an identifier, first byte on the wire first. -/
def uidBytes (u : Uid) : Bytes := [u.b0, u.b1, u.b2, u.b3]

/-- An identifier out of a byte string; `none` unless the string has exactly four bytes (R95 item 1). -/
def uidOf? : Bytes → Option Uid
  | [a, b, c, d] => some ⟨a, b, c, d⟩
  | _ => none

end Sys2Proof.Machine
end

