-- ==== Sys2Proof/Syntax.lean ====
section
/-! DEFINITION. The instructions: one constructor per row of spec/opcode_table.json. Eleven are the
classes of a received frame (R64), with the frame's fields as operands (R55 to R61); seven are the other
events (R52). The two CRC bytes of an inbound frame are operands too: they are kept as received and
never checked (R54). -/

namespace Sys2Proof

/-- The instructions of the block: its input events, frames split by class (R52, R64). -/
inductive Instr where
  /-- WUPB: `05`, AFI, PARAM with bit 3 set, CRC (R55). -/
  | wupb (afi param c0 c1 : Byte)
  /-- REQB: `05`, AFI, PARAM with bit 3 clear, CRC (R55). -/
  | reqb (afi param c0 c1 : Byte)
  /-- ATTRIB: 11 bytes, the first and the ten that are never read (R56). -/
  | attrib (first : Byte) (rest : Bytes)
  /-- RESET: `0C` and two bytes that are never read (R57). -/
  | reset (c0 c1 : Byte)
  /-- WTX-acknowledge: `F2`, WTXM, CRC (R58). -/
  | wtxack (wtxm c0 c1 : Byte)
  /-- HALT: `50`, PUPI, CRC (R59). -/
  | halt (pupi : Uid) (c0 c1 : Byte)
  /-- SELECT: PCB with N(S), CLA, `P_INS_SELECT`, the rest of the APDU, CRC (R60, R61). -/
  | select (ns : Bit) (cla : Byte) (body : Bytes) (c0 c1 : Byte)
  /-- READ RECORD: PCB with N(S), CLA, `P_INS_READ_RECORD`, the rest of the APDU, CRC (R60). -/
  | readRecord (ns : Bit) (cla : Byte) (body : Bytes) (c0 c1 : Byte)
  /-- GET DATA whose APDU is a key of `P_GETDATA_TABLE` (R64). -/
  | getData (ns : Bit) (cla : Byte) (body : Bytes) (c0 c1 : Byte)
  /-- Any other I-block: PCB with N(S), APDU (possibly empty), CRC (R60). -/
  | iblock (ns : Bit) (apdu : Bytes) (c0 c1 : Byte)
  /-- A frame of class `UNKNOWN` (R64, R68). -/
  | unrecognised (f : Bytes)
  /-- The event `FieldOn`. -/
  | fieldOn
  /-- The event `RxNone`. -/
  | rxNone
  /-- The event `OracleReply(id, p)`. -/
  | oracleReply (id : Ident) (p : Bytes)
  /-- The event `WtxElapsed`. -/
  | wtxElapsed
  /-- The event `NoFieldTimeout`. -/
  | noFieldTimeout
  /-- The event `Abort(who)`. -/
  | abort (who : AbortSource)
  /-- The event `PhyFail`. -/
  | phyFail
deriving DecidableEq, Repr

end Sys2Proof
end

