-- ==== Sys2Proof/WellFormed.lean ====
section
/-! DEFINITION. Which instruction terms stand for something the environment can deliver: the frame an
instruction stands for has the format its row of spec/opcode_table.json gives, is of no class that comes
earlier in the order of R64, and is no longer than `P_MAX_FRAME` (R39, R52). Written from the formats
of R55 to R61, not from the decoder. -/

namespace Sys2Proof

/-- A frame of this length and first byte has the format of ATTRIB (R56), whatever else it is. -/
abbrev attribShaped (c : Cfg) (len : Nat) (first : Byte) : Prop :=
  len = 11 ∧ (c.attribOpcode = none ∨ c.attribOpcode = some first)

/-- The PCB of an I-block with this N(S): `0x02` or `0x03` (R53). -/
abbrev iblockPcb (ns : Bit) : Byte := if ns = 1#1 then 0x03 else 0x02

/-- An APDU that a class before IBLOCK claims: its INS is SELECT's or READ RECORD's, or it is a GET DATA
whose whole APDU is a key. R60: an INS exists only from two APDU bytes on. -/
def claimedApdu (c : Cfg) : Bytes → Bool
  | cla :: ins :: body =>
    ins == c.insSelect || ins == c.insReadRecord
      || (ins == c.insGetData && c.getDataTable.any (fun g => g.apdu == cla :: ins :: body))
  | _ => false

/-- The check of an instruction against its format. The events that are not frames have no field to
check. -/
def wellFormed (c : Cfg) : Instr → Bool
  | .wupb _ param _ _ => param.getLsbD 3 && decide (5 ≤ c.maxFrame)
  | .reqb _ param _ _ => !param.getLsbD 3 && decide (5 ≤ c.maxFrame)
  | .attrib first rest => decide (attribShaped c (1 + rest.length) first ∧ 11 ≤ c.maxFrame)
  | .reset _ _ => decide (3 ≤ c.maxFrame)
  | .wtxack _ _ _ => decide (4 ≤ c.maxFrame)
  | .halt _ _ _ => decide (7 ≤ c.maxFrame)
  | .select ns _ body _ _ =>
    decide (¬ attribShaped c (5 + body.length) (iblockPcb ns) ∧ 5 + body.length ≤ c.maxFrame)
  | .readRecord ns _ body _ _ =>
    decide (¬ attribShaped c (5 + body.length) (iblockPcb ns) ∧ 5 + body.length ≤ c.maxFrame
      ∧ c.insReadRecord ≠ c.insSelect)
  | .getData ns cla body _ _ =>
    decide (¬ attribShaped c (5 + body.length) (iblockPcb ns) ∧ 5 + body.length ≤ c.maxFrame
      ∧ c.insGetData ≠ c.insSelect ∧ c.insGetData ≠ c.insReadRecord)
      && c.getDataTable.any (fun g => g.apdu == cla :: c.insGetData :: body)
  | .iblock ns apdu _ _ =>
    decide (¬ attribShaped c (3 + apdu.length) (iblockPcb ns) ∧ 3 + apdu.length ≤ c.maxFrame)
      && !claimedApdu c apdu
  | .unrecognised f =>
    decide (f.length ≤ c.maxFrame
      ∧ ¬ (f.length = 5 ∧ f.head? = some 0x05)
      ∧ ¬ (f.length = 11 ∧ (c.attribOpcode = none ∨ c.attribOpcode = f.head?))
      ∧ ¬ (f.length = 3 ∧ f.head? = some 0x0C)
      ∧ ¬ (f.length = 4 ∧ f.head? = some 0xF2)
      ∧ ¬ (f.length = 7 ∧ f.head? = some 0x50)
      ∧ ¬ (3 ≤ f.length ∧ (f.head? = some 0x02 ∨ f.head? = some 0x03)))
  | .fieldOn => true
  | .rxNone => true
  | .oracleReply _ _ => true
  | .wtxElapsed => true
  | .noFieldTimeout => true
  | .abort _ => true
  | .phyFail => true

/-- An instruction the environment can deliver under the configuration `c`. -/
abbrev WellFormed (c : Cfg) (i : Instr) : Prop := wellFormed c i = true

end Sys2Proof
end

