-- ==== Sys2Proof/Decode.lean ====
section
/-! DEFINITION. The decoder is the classifier of R64: it maps an event, and a received frame by its
length and leading bytes, to an instruction. It is total: a frame that fits no pattern is the
instruction `unrecognised` (R67, R68). After it the encoder, which writes an instruction's frame from
the formats of R55 to R61. -/

namespace Sys2Proof

open Sys2Proof.Machine

/-- The command categories of R64, the value `class(f)` that the audit log records. All but `unknown`
are also the rows of the priority table of R65. -/
inductive FrameClass where
  | wupb
  | reqb
  | attrib
  | reset
  | wtxack
  | halt
  | select
  | readRecord
  | getData
  | iblock
  | unknown
deriving DecidableEq, Repr

/-- `pat_WUPB` (R64). -/
def patWupb (f : Bytes) : Bool := f.length == 5 && byteAt f 0 == 0x05 && addressed f

/-- `pat_REQB` (R64). -/
def patReqb (f : Bytes) : Bool := f.length == 5 && byteAt f 0 == 0x05 && !addressed f

/-- `pat_ATTRIB` (R64): the length alone unless `P_ATTRIB_OPCODE` is set (R56). -/
def patAttrib (c : Cfg) (f : Bytes) : Bool :=
  f.length == 11 && (c.attribOpcode == none || c.attribOpcode == some (byteAt f 0))

/-- `pat_RESET` (R64). -/
def patReset (f : Bytes) : Bool := f.length == 3 && byteAt f 0 == 0x0C

/-- `pat_WTXACK` (R64). -/
def patWtxack (f : Bytes) : Bool := f.length == 4 && byteAt f 0 == 0xF2

/-- `pat_HALT` (R64). -/
def patHalt (f : Bytes) : Bool := f.length == 7 && byteAt f 0 == 0x50

/-- `pat_SELECT` (R64). -/
def patSelect (c : Cfg) (f : Bytes) : Bool := isIBlock f && ins? f == some c.insSelect

/-- `pat_READ` (R64). -/
def patRead (c : Cfg) (f : Bytes) : Bool := isIBlock f && ins? f == some c.insReadRecord

/-- `pat_GETDATA` (R64): the APDU must be a key of the table. -/
def patGetData (c : Cfg) (f : Bytes) : Bool :=
  isIBlock f && ins? f == some c.insGetData && (findGetData c (apdu f)).isSome

/-- `pat_IBLOCK` (R64). -/
def patIblock (f : Bytes) : Bool := isIBlock f

/-- The pattern of a row, by the row's class (R64). No frame is of class `unknown` by pattern. -/
def rowPattern (c : Cfg) (r : FrameClass) (f : Bytes) : Bool :=
  match r with
  | .wupb => patWupb f
  | .reqb => patReqb f
  | .attrib => patAttrib c f
  | .reset => patReset f
  | .wtxack => patWtxack f
  | .halt => patHalt f
  | .select => patSelect c f
  | .readRecord => patRead c f
  | .getData => patGetData c f
  | .iblock => patIblock f
  | .unknown => false

/-- The rows in priority order (R64, R65). -/
def rows : List FrameClass :=
  [.wupb, .reqb, .attrib, .reset, .wtxack, .halt, .select, .readRecord, .getData, .iblock]

/-- `class(f)` of R64: the first class whose pattern holds, or `UNKNOWN`. -/
def classify (c : Cfg) (f : Bytes) : FrameClass :=
  (rows.find? (fun r => rowPattern c r f)).getD .unknown

/-- The APDU after CLA and INS: `f[3 .. len(f)-3]` (R60). -/
def bodyOf (f : Bytes) : Bytes := slice f 3 (f.length - 3)

/-- The first of the two CRC bytes (R54). -/
def crcByte0 (f : Bytes) : Byte := byteAt f (f.length - 2)

/-- The second of the two CRC bytes (R54). -/
def crcByte1 (f : Bytes) : Byte := byteAt f (f.length - 1)

/-- A received frame as an instruction: its class, and its fields by R55 to R61. -/
def decodeFrame (c : Cfg) (f : Bytes) : Instr :=
  match classify c f with
  | .wupb => .wupb (byteAt f 1) (byteAt f 2) (byteAt f 3) (byteAt f 4)
  | .reqb => .reqb (byteAt f 1) (byteAt f 2) (byteAt f 3) (byteAt f 4)
  | .attrib => .attrib (byteAt f 0) (f.drop 1)
  | .reset => .reset (byteAt f 1) (byteAt f 2)
  | .wtxack => .wtxack (byteAt f 1) (byteAt f 2) (byteAt f 3)
  | .halt => .halt ⟨byteAt f 1, byteAt f 2, byteAt f 3, byteAt f 4⟩ (byteAt f 5) (byteAt f 6)
  | .select => .select (nsOf f) (byteAt f 1) (bodyOf f) (crcByte0 f) (crcByte1 f)
  | .readRecord => .readRecord (nsOf f) (byteAt f 1) (bodyOf f) (crcByte0 f) (crcByte1 f)
  | .getData => .getData (nsOf f) (byteAt f 1) (bodyOf f) (crcByte0 f) (crcByte1 f)
  | .iblock => .iblock (nsOf f) (apdu f) (crcByte0 f) (crcByte1 f)
  | .unknown => .unrecognised f

/-- An event as an instruction (R52, R85). -/
def decode (c : Cfg) : Event → Instr
  | .rx f => decodeFrame c f
  | .fieldOn => .fieldOn
  | .rxNone => .rxNone
  | .oracleReply id p => .oracleReply id p
  | .wtxElapsed => .wtxElapsed
  | .noFieldTimeout => .noFieldTimeout
  | .abort who => .abort who
  | .phyFail => .phyFail

/-- WUPB's frame (R55). -/
def wupbFrame (afi param c0 c1 : Byte) : Bytes := [0x05, afi, param, c0, c1]

/-- REQB's frame (R55): WUPB's layout, with PARAM bit 3 clear. -/
def reqbFrame (afi param c0 c1 : Byte) : Bytes := [0x05, afi, param, c0, c1]

/-- ATTRIB's frame (R56). -/
def attribFrame (first : Byte) (rest : Bytes) : Bytes := first :: rest

/-- RESET's frame (R57). -/
def resetFrame (c0 c1 : Byte) : Bytes := [0x0C, c0, c1]

/-- The WTX-acknowledge frame (R58). -/
def wtxackFrame (wtxm c0 c1 : Byte) : Bytes := [0xF2, wtxm, c0, c1]

/-- HALT's frame (R59). -/
def haltFrame (pupi : Uid) (c0 c1 : Byte) : Bytes := 0x50 :: (uidBytes pupi ++ [c0, c1])

/-- SELECT's frame (R60). -/
def selectFrame (c : Cfg) (ns : Bit) (cla : Byte) (body : Bytes) (c0 c1 : Byte) : Bytes :=
  iFrame ns (cla :: c.insSelect :: body) c0 c1

/-- READ RECORD's frame (R60). -/
def readRecordFrame (c : Cfg) (ns : Bit) (cla : Byte) (body : Bytes) (c0 c1 : Byte) : Bytes :=
  iFrame ns (cla :: c.insReadRecord :: body) c0 c1

/-- GET DATA's frame (R60). -/
def getDataFrame (c : Cfg) (ns : Bit) (cla : Byte) (body : Bytes) (c0 c1 : Byte) : Bytes :=
  iFrame ns (cla :: c.insGetData :: body) c0 c1

/-- The encoder: the event that stands for an instruction. -/
def encode (c : Cfg) : Instr → Event
  | .wupb afi param c0 c1 => .rx (wupbFrame afi param c0 c1)
  | .reqb afi param c0 c1 => .rx (reqbFrame afi param c0 c1)
  | .attrib first rest => .rx (attribFrame first rest)
  | .reset c0 c1 => .rx (resetFrame c0 c1)
  | .wtxack wtxm c0 c1 => .rx (wtxackFrame wtxm c0 c1)
  | .halt pupi c0 c1 => .rx (haltFrame pupi c0 c1)
  | .select ns cla body c0 c1 => .rx (selectFrame c ns cla body c0 c1)
  | .readRecord ns cla body c0 c1 => .rx (readRecordFrame c ns cla body c0 c1)
  | .getData ns cla body c0 c1 => .rx (getDataFrame c ns cla body c0 c1)
  | .iblock ns a c0 c1 => .rx (iFrame ns a c0 c1)
  | .unrecognised f => .rx f
  | .fieldOn => .fieldOn
  | .rxNone => .rxNone
  | .oracleReply id p => .oracleReply id p
  | .wtxElapsed => .wtxElapsed
  | .noFieldTimeout => .noFieldTimeout
  | .abort who => .abort who
  | .phyFail => .phyFail

/-- The length of the frame a word of spec/opcode_table.json stands for. A frame's length comes from the
PHY (R69) and not from its bits, so a word of the table's fixed bits is completed to the shortest
length its row's format gives; DESIGN CHOICE, log entry 3. -/
def tableFrameLength (first : Byte) : Nat :=
  if first = 0x05 then 5
  else if first = 0x0C then 3
  else if first = 0xF2 then 4
  else if first = 0x50 then 7
  else if first = 0x02 ∨ first = 0x03 then 5
  else 0

/-- The low `n` bytes of a number, least significant first: the table numbers bits from the first byte
up. -/
def bytesOfNat : Nat → Nat → Bytes
  | 0, _ => []
  | n + 1, w => BitVec.ofNat 8 w :: bytesOfNat n (w / 256)

/-- The frame of a table word of `nbits` bits, bits above them zero. -/
def tableFrame (nbits w : Nat) : Bytes :=
  let given := bytesOfNat (max 1 ((nbits + 7) / 8)) (w % 2 ^ nbits)
  given ++ List.replicate (tableFrameLength (byteAt given 0) - given.length) 0x00

/-- The instruction the decoder reads from a table word, under the configuration of `State.reset`. -/
def decodeTableWord (nbits w : Nat) : Option Instr :=
  some (decode Cfg.initial (.rx (tableFrame nbits w)))

end Sys2Proof
end

