-- ==== Sys2Proof/Machine/Types.lean ====
section
/-! DEFINITION. The value types of the registers and of the outputs: card states (R18), file context
(R22), run status (R20), the outstanding request (R28), the prepared frames (R33), the error codes (R112)
and the output stream (R12, R119). -/

namespace Sys2Proof.Machine

/-- `CardState` of R18. `noField`, `idle`, `halted` and `handleWtx` are stable; the others are phases a
step passes through (R19). -/
inductive CardState where
  | noField
  | idle
  | selecting
  | requesting
  | halting
  | halted
  | selectFile (fid : Option (Byte × Byte))
  | readRecord
  | getData
  | genericIBlock
  | handleWtx
deriving DecidableEq, Repr

/-- `S.file_context` of R22. -/
inductive FileContext where
  | none
  | awaitingFirst
  | awaitingSecond
  | awaitingThird
  | invalid
deriving DecidableEq, Repr

/-- Why a run ended (R20). -/
inductive ExitReason where
  | abortButton
  | abortHost
  | noFieldTimeout
  | phyFail
  | phySetupFail
deriving DecidableEq, Repr

/-- `S.run` of R20. -/
inductive RunStatus where
  | running
  | terminated (reason : ExitReason)
deriving DecidableEq, Repr

/-- The outstanding oracle request of R28. -/
structure Request where
  id : Ident
  sentPayload : Bytes
deriving DecidableEq, Repr

/-- The finalized bytes of the two static entries (R33). -/
structure Prep where
  atqb : Bytes
  ok : Bytes
deriving DecidableEq, Repr

/-- `ResponseEntry` of R30, its flags named by their meaning (C1). -/
structure ResponseEntry where
  payload : Bytes
  pcbDone : Bool
  crcDone : Bool
deriving DecidableEq, Repr

/-- The five error kinds of R112 with the information each logs. -/
inductive ErrorEntry where
  /-- Code 1: the frame, its class and the state. -/
  | unrecognized (f : Bytes) (cls : FrameClass) (st : CardState)
  /-- Code 2: no information. -/
  | phyEncodeFail
  /-- Code 3: the request id. -/
  | oracleTimeout (id : Ident)
  /-- Code 4: the request id. -/
  | emptyReply (id : Ident)
  /-- Code 5: the inbound frame. -/
  | unknownPcb (f : Bytes)
deriving DecidableEq, Repr

/-- The entries of the audit log (R119). -/
inductive LogEntry where
  | rx (f : Bytes) (cls : FrameClass) (st : CardState)
  | trans (path : List CardState)
  | error (e : ErrorEntry)
  | reply (id : Ident) (p : Bytes)
  | stray (id : Ident) (p : Bytes)
  | exit (reason : ExitReason)
deriving DecidableEq, Repr

/-- The names of the pre-encoded entries (R50). -/
inductive StaticName where
  | atqb
  | ok
deriving DecidableEq, Repr

/-- How the PHY gets a frame's symbols: a buffer made at initialisation, or encoded now (R12, R50). -/
inductive TxSource where
  | cached (name : StaticName)
  | fresh
deriving DecidableEq, Repr

/-- The outputs of a step (R12). -/
inductive Output where
  | tx (bytes : Bytes) (src : TxSource)
  | submit (id : Ident) (payload : Bytes)
  | log (entry : LogEntry)
deriving DecidableEq, Repr

end Sys2Proof.Machine
end

