-- ==== Sys2Proof/Machine/Codec.lean ====
section
/-! DEFINITION. The frame codec (40_frame_codec.md): the PCB parser, CRC_B, `finalize`, the S(WTX) block,
and the two pseudo-instructions of R70 that build a frame with its CRC. Pure functions. -/

namespace Sys2Proof.Machine

/-- What the PCB parser tells apart (R71). -/
inductive PcbClass where
  | ns0
  | ns1
  | wupb
  | unknown
deriving DecidableEq, Repr

/-- `pcb_class(f)` of R71: by the first byte; an empty frame is `unknown` (D29). -/
def pcbClass (f : Bytes) : PcbClass :=
  if f.length = 0 then .unknown
  else if byteAt f 0 = 0x02 then .ns0
  else if byteAt f 0 = 0x03 then .ns1
  else if byteAt f 0 = 0x05 then .wupb
  else .unknown

/-- `pcb_prefix(c)` of R72: the PCB byte a response carries. -/
def pcbPrefix : PcbClass → Option Byte
  | .ns0 => some 0x02
  | .ns1 => some 0x03
  | .wupb => some 0x50
  | .unknown => none

/-- One bit of the CRC (R73): shift right, and fold the reflected polynomial in when a one falls out. -/
def crcBit (c : Word16) : Word16 :=
  if c &&& 0x0001 = 0 then c >>> 1 else (c >>> 1) ^^^ 0x8408

/-- One byte of the CRC (R73): the byte is folded in, then eight bits are shifted out. -/
def crcByte (c : Word16) (x : Byte) : Word16 :=
  crcBit (crcBit (crcBit (crcBit (crcBit (crcBit (crcBit (crcBit (c ^^^ x.setWidth 16))))))))

/-- `crc16_b(d)` of R73: CRC_B, initial value `0xFFFF`, final exclusive-or `0xFFFF`. -/
def crc16b (d : Bytes) : Word16 := d.foldl crcByte 0xFFFF ^^^ 0xFFFF

/-- `lo8` of R10. -/
def lo8 (x : Word16) : Byte := x.setWidth 8

/-- `hi8` of R10. -/
def hi8 (x : Word16) : Byte := (x >>> 8).setWidth 8

/-- `crc_bytes(d)` of R74: least significant byte first. -/
def crcBytes (d : Bytes) : Bytes := [lo8 (crc16b d), hi8 (crc16b d)]

/-- `crc_frame(d)` of R74: the string with its CRC appended. -/
def crcFrame (d : Bytes) : Bytes := d ++ crcBytes d

/-- The property of R79: the last two bytes are the CRC of the bytes before them. -/
def crcValid (b : Bytes) : Bool :=
  decide (2 ≤ b.length) && (b.drop (b.length - 2) == crcBytes (b.take (b.length - 2)))

/-- `pcb_step(e, f)` of R75. An `unknown` PCB leaves payload and flag alone and logs error code 5 (D30). -/
def pcbStep (e : ResponseEntry) (f : Bytes) : ResponseEntry × List Output :=
  if e.pcbDone then (e, [])
  else
    match pcbPrefix (pcbClass f) with
    | some p => ({ e with payload := p :: e.payload, pcbDone := true }, [])
    | none => (e, [.log (.error (.unknownPcb f))])

/-- `crc_step(e)` of R76. -/
def crcStep (e : ResponseEntry) : ResponseEntry :=
  if e.crcDone then e else { e with payload := crcFrame e.payload, crcDone := true }

/-- `finalize(e, f)` of R77: the PCB first, then the CRC, so that the CRC covers the PCB (R129). -/
def finalize (e : ResponseEntry) (f : Bytes) : ResponseEntry × List Output :=
  (crcStep (pcbStep e f).1, (pcbStep e f).2)

/-- A payload with nothing applied yet: a per-exchange entry or an oracle reply (R32, R77). -/
def rawEntry (p : Bytes) : ResponseEntry := ⟨p, false, false⟩

/-- `clamp(v, lo, hi)` of R13. -/
def clamp (v lo hi : Nat) : Nat := min (max v lo) hi

/-- The WTXM byte of R63: the units clamped to 1..59, the reserved high bits zeroed. -/
def wtxm (c : Cfg) : Byte := BitVec.ofNat 8 (clamp c.wtxUnits 1 59) &&& 0x3F

/-- `wtx_frame(C)` of R102: the S(WTX) request, its CRC over the two header bytes (C8). -/
def wtxFrame (c : Cfg) : Bytes := crcFrame [0xF2, wtxm c]

/-- The error codes of R112. -/
def errorCode : ErrorEntry → Nat
  | .unrecognized _ _ _ => 1
  | .phyEncodeFail => 2
  | .oracleTimeout _ => 3
  | .emptyReply _ => 4
  | .unknownPcb _ => 5

/-- Which errors end the run (R112): only the PHY's. -/
def errorFatal : ErrorEntry → Bool
  | .unrecognized _ _ _ => false
  | .phyEncodeFail => true
  | .oracleTimeout _ => false
  | .emptyReply _ => false
  | .unknownPcb _ => false

/-- The lines of an event script (R70), the two pseudo-instructions among them, as terms rather than text
(DESIGN CHOICE, log entry 11). -/
inductive ScriptLine where
  | field
  | rx (h : Bytes)
  | rxnone
  | reply (id : Ident) (h : Bytes)
  | elapse
  | nofield
  | abort (who : AbortSource)
  | phyfail
  /-- `RXC h1 … hn`: the bytes with their CRC. -/
  | rxc (h : Bytes)
  /-- `IBLK ns h1 … hn`: the I-block with N(S) = `ns` carrying the APDU. -/
  | iblk (ns : Bit) (h : Bytes)
deriving DecidableEq, Repr

/-- The event a script line stands for (R70). -/
def ScriptLine.event : ScriptLine → Event
  | .field => .fieldOn
  | .rx h => .rx h
  | .rxnone => .rxNone
  | .reply id h => .oracleReply id h
  | .elapse => .wtxElapsed
  | .nofield => .noFieldTimeout
  | .abort who => .abort who
  | .phyfail => .phyFail
  | .rxc h => .rx (crcFrame h)
  | .iblk ns h => .rx (crcFrame (pcbOf ns :: h))

end Sys2Proof.Machine
end

