-- ==== Sys2Proof/Machine/Repository.lean ====
section
/-! DEFINITION. The response repository (R32), the ATQB with its UID (R80), the configuration check (R95)
and `prepare_session` (R96). -/

namespace Sys2Proof.Machine

/-- The static `E_ATQB` (R32): 12 bytes, no CRC yet. -/
def entryAtqb (c : Cfg) : ResponseEntry :=
  { payload := 0x50 :: (c.defaultUid ++ c.atqbAppData ++ [c.atqbBitRate, c.atqbMaxFrame, c.atqbFwi])
    pcbDone := true
    crcDone := false }

/-- The static `E_OK` (R32): its last two bytes are already the CRC of `00` (C3). -/
def entryOk : ResponseEntry := ⟨[0x00, 0x78, 0xF0], true, true⟩

/-- `E_SEL(k)` (R32). -/
def entrySel (e : FileEntry) : ResponseEntry := rawEntry e.selectResp

/-- `E_REC(k, j)` (R32), by the record's bytes. -/
def entryRec (record : Bytes) : ResponseEntry := rawEntry record

/-- `E_FNF` (R32). -/
def entryFnf (c : Cfg) : ResponseEntry := rawEntry c.swFileNotFound

/-- `E_NMR` (R32). -/
def entryNmr (c : Cfg) : ResponseEntry := rawEntry c.swNoMoreRecord

/-- `E_GD(i)` (R32). -/
def entryGd (g : GetDataEntry) : ResponseEntry := rawEntry g.resp

/-- Every entry of the repository (R32), static ones first. -/
def repository (c : Cfg) : List ResponseEntry :=
  [entryAtqb c, entryOk] ++ c.fileTable.map entrySel
    ++ c.fileTable.flatMap (fun e => e.records.map entryRec)
    ++ [entryFnf c, entryNmr c] ++ c.getDataTable.map entryGd

/-- `atqb_frame(u)` of R80: bytes 1..4 of the template are replaced before the CRC is computed. -/
def atqbFrame (c : Cfg) (u : Uid) : Bytes :=
  let t := (entryAtqb c).payload
  (crcStep ⟨t.take 1 ++ uidBytes u ++ t.drop 5, true, false⟩).payload

/-- `prepare(C, u)` of R96: the two static frames. That the PHY pre-encodes them is the PHY's (R34). -/
def prepare (c : Cfg) (u : Uid) : Prep :=
  { atqb := atqbFrame c u
    ok := (crcStep entryOk).payload }

/-- The "myth-check" of one entry (R95 item 4). -/
def staticCrcOk (e : ResponseEntry) : Bool := !e.crcDone || (e.pcbDone && crcValid e.payload)

/-- The UID of the session (R25): the host's if it supplied one, else the default; `none` when the one
that counts is not four bytes. -/
def sessionUid (c : Cfg) : Option Uid := uidOf? (c.hostUid.getD c.defaultUid)

/-- No two entries of the file table have the same id: ruling I5 of 93_implementation_defined.md refuses a
table with duplicate file ids. -/
def fileIdsDistinct (c : Cfg) : Bool := decide (c.fileTable.map (fun e => e.fid)).Nodup

/-- `cfg_wf(C)` of R95 and ruling I5. Item 3, and the single bytes and the natural number of item 1, hold by
type. -/
def cfgWf (c : Cfg) : Bool :=
  -- item 1
  decide (c.defaultUid.length = 4)
    && (c.hostUid.all (fun u => decide (u.length = 4)))
    && decide (c.atqbAppData.length = 4)
    -- item 2
    && c.fileTable.all (fun e => decide (e.fid.length = 2) && decide (e.records.length ≤ 3))
    -- item 4
    && (repository c).all staticCrcOk
    -- item 5
    && c.fileTable.any (fun e => e.fid == [0x3F, 0x04])
    -- ruling I5
    && fileIdsDistinct c

end Sys2Proof.Machine
end

