-- ==== Sys2Proof/Machine/State.lean ====
section
/-! DEFINITION. The state of the machine: every register of 10_state.md, the configuration (R29), and two
fields of the model's own, the events the environment has delivered and the outputs emitted so far.
Then the ways a step can stop, and the state after reset (R37, R126). The block has no addressed memory
(R38), so there is no memory field. -/

namespace Sys2Proof.Machine

/-- `S` of R16 with `C` of R29. -/
structure State where
  /-- `C`: the control registers, read-only after initialisation (R29). -/
  cfg : Cfg
  /-- `S.run` (R20). -/
  run : RunStatus
  /-- `S.card_state` (R18). -/
  cardState : CardState
  /-- `S.active` (R21). -/
  active : Bool
  /-- `S.file_context` (R22). -/
  fileContext : FileContext
  /-- `S.sel_file`, an index into `C.P_FILE_TABLE` (R23). -/
  selFile : Option Nat
  /-- `S.last_ns` (R24). -/
  lastNs : Bit
  /-- `S.uid_override` (R25). -/
  uidOverride : Uid
  /-- `S.last_iblock` (R27). -/
  lastIblock : Option Bytes
  /-- `S.req` (R28). -/
  req : Option Request
  /-- `S.next_id` (R28). -/
  nextId : Ident
  /-- `S.prep` (R33). -/
  prep : Prep
  /-- The model's own (log entry 2): events delivered by the environment and not yet taken, oldest
  first. -/
  inputs : List Event
  /-- The model's own (log entry 2): the outputs of all steps so far, oldest first (R12, R119). -/
  outs : List Output
deriving DecidableEq, Repr

/-- Where a rule of the spec has no case. Each is raised only in states and configurations that no session
reaches (R36, R95), so stopping there is safe: no claim about a session can rest on it (log entry 5). -/
inductive Fault where
  /-- A frame arrives while `card_state` is a phase. R85 has no line for it, since a phase is never held
  between steps (R19). Raised by every frame instruction. Safe. -/
  | phaseAtBoundary
  /-- READ RECORD with a record due but no selected file in the table. R99 takes `some k := S.sel_file`
  from R36 item 5. Raised by READ RECORD's row. Safe. -/
  | contextWithoutFile
  /-- READ RECORD would make a fourth record due: there is no such `file_context` (R22), and R95 item 2
  refuses a file of more than three records. Raised by READ RECORD's row. Safe. -/
  | recordPastThird
  /-- The WTX budget elapses in `HandleWtx` with no request. R105 takes `some r := S.req` from R36 item 3.
  Raised by WTX_ELAPSED. Safe. -/
  | waitWithoutRequest
  /-- A reply to the outstanding request in `HandleWtx` with no retained I-block. R107 takes
  `some b := S.last_iblock` from R36 item 3. Raised by ORACLE_REPLY. Safe. -/
  | waitWithoutBlock
  /-- A reply to an outstanding request outside `HandleWtx`. R107 to R109 have no line for it, since a
  request is outstanding only in `HandleWtx` (R36 item 3). Raised by ORACLE_REPLY. Safe. -/
  | requestOutsideWait
deriving DecidableEq, Repr

/-- Why an instruction would have no meaning. -/
inductive Refusal where
  /-- An instruction this model gives no meaning. Raised by no arm: every instruction has one. Safe. -/
  | notModelled (mnemonic : String)
deriving DecidableEq, Repr

/-- The registers of a new session (R37) whose identifier is `u`, under the configuration `c`, when PHY
setup and pre-encoding succeed. -/
def State.session (c : Cfg) (u : Uid) : State where
  cfg := c
  run := .running
  cardState := .noField
  active := false
  fileContext := .none
  selFile := none
  lastNs := 0
  uidOverride := u
  lastIblock := none
  req := none
  nextId := 0
  prep := prepare c u
  inputs := []
  outs := []

/-- The machine right after reset: a new session (R37, R126) under `Cfg.initial`, whose UID is
`P_DEFAULT_UID` since no host UID is given. The register values are the spec's; the configuration's OPEN
parameters are the DESIGN CHOICE of log entry 1. -/
def State.reset : State := State.session Cfg.initial ⟨0x00, 0x00, 0x00, 0x00⟩

end Sys2Proof.Machine
end

