-- ==== Sys2Proof/Machine/Flags.lean ====
section
/-! DEFINITION. What the rules compute from the flags `active` and `file_context` (R21, R22): the guards
of the priority table (R65) and the order of the records (R99). -/

namespace Sys2Proof.Machine

/-- The stable values of `card_state` (R19). -/
def CardState.stable : CardState → Bool
  | .noField | .idle | .halted | .handleWtx => true
  | .selecting | .requesting | .halting | .selectFile _ | .readRecord | .getData | .genericIBlock => false

/-- The number of the record due next (R22), if one is due. -/
def FileContext.due : FileContext → Option Nat
  | .awaitingFirst => some 1
  | .awaitingSecond => some 2
  | .awaitingThird => some 3
  | .none | .invalid => Option.none

/-- `Awaiting(n)` of R99; there is none past the third. -/
def FileContext.awaiting : Nat → Option FileContext
  | 1 => some .awaitingFirst
  | 2 => some .awaitingSecond
  | 3 => some .awaitingThird
  | _ => Option.none

/-- The guard of row 1 (R65). -/
def guardWupb (s : State) : Bool := (s.cardState == .idle || s.cardState == .halted) && !s.active

/-- The guard of row 2 (R65). -/
def guardReqb (s : State) : Bool := s.cardState == .idle && !s.active

/-- The guard of row 3 (R65). -/
def guardAttrib (s : State) : Bool := s.cardState == .idle && !s.active

/-- The guard of row 7 (R65). -/
def guardSelect (s : State) : Bool := s.cardState == .idle || s.active

/-- The guard of row 8 (R65). -/
def guardRead (s : State) : Bool := s.active && s.fileContext != .none

/-- The guard of row 9 (R65). -/
def guardGetData (s : State) : Bool := s.active

/-- The guard of row 10 (R65). -/
def guardIblock (s : State) : Bool := s.active

/-- The guard of a row, by the row's class (R65). Rows 5 and 6 never fire. -/
def rowGuard (r : FrameClass) (s : State) : Bool :=
  match r with
  | .wupb => guardWupb s
  | .reqb => guardReqb s
  | .attrib => guardAttrib s
  | .reset => true
  | .wtxack => false
  | .halt => false
  | .select => guardSelect s
  | .readRecord => guardRead s
  | .getData => guardGetData s
  | .iblock => guardIblock s
  | .unknown => false

end Sys2Proof.Machine
end

