-- ==== Sys2Proof/Machine/Ops.lean ====
section
/-! DEFINITION. The named operations over the registers and outputs that the meanings share: register
writes, outputs (R12), `respond` (R82), ending the run (R113), which is all that takes the place of an
exception here (R111), and taking the next event. There is no return from an exception (R111). -/

namespace Sys2Proof.Machine

/-- What a step answers (Host/Core.lean) on this machine. -/
abbrev Result := Host.Outcome State Fault Refusal

/-- Append one output to the output stream (R12). -/
def State.emit (s : State) (o : Output) : State := { s with outs := s.outs ++ [o] }

/-- Append outputs in order (R12). -/
def State.emitAll (s : State) (os : List Output) : State := { s with outs := s.outs ++ os }

/-- `S.card_state <- v`. -/
def State.enter (s : State) (v : CardState) : State := { s with cardState := v }

/-- `S.run <- v`. -/
def State.setRun (s : State) (v : RunStatus) : State := { s with run := v }

/-- `S.active <- v`. -/
def State.setActive (s : State) (v : Bool) : State := { s with active := v }

/-- `S.file_context <- v`. -/
def State.setFileContext (s : State) (v : FileContext) : State := { s with fileContext := v }

/-- `S.sel_file <- v`. -/
def State.setSelFile (s : State) (v : Option Nat) : State := { s with selFile := v }

/-- `S.last_ns <- v`. -/
def State.setLastNs (s : State) (v : Bit) : State := { s with lastNs := v }

/-- `S.last_iblock <- v`. -/
def State.setLastIblock (s : State) (v : Option Bytes) : State := { s with lastIblock := v }

/-- `S.req <- v`. -/
def State.setReq (s : State) (v : Option Request) : State := { s with req := v }

/-- `S.next_id <- v`. -/
def State.setNextId (s : State) (v : Ident) : State := { s with nextId := v }

/-- `emit Log(entry)` (R119). -/
def State.log (s : State) (l : LogEntry) : State := s.emit (.log l)

/-- `emit Log(Error(name, info))` (R112): every non-fatal error is this one log entry (R111). -/
def State.logError (s : State) (e : ErrorEntry) : State := s.log (.error e)

/-- `emit Tx(bytes, Cached(name))`: the prepared frame of a static entry (R50). -/
def State.txCached (s : State) (name : StaticName) : State :=
  match name with
  | .atqb => s.emit (.tx s.prep.atqb (.cached .atqb))
  | .ok => s.emit (.tx s.prep.ok (.cached .ok))

/-- `emit Tx(bytes, Fresh)` (R12). -/
def State.txFresh (s : State) (b : Bytes) : State := s.emit (.tx b .fresh)

/-- R83: `last_ns` receives the N(S) of an I-block response whose PCB `respond` has just prefixed. -/
def State.recordNs (s : State) (e e2 : ResponseEntry) : State :=
  if e2.payload ≠ [] ∧ (byteAt e2.payload 0 = 0x02 ∨ byteAt e2.payload 0 = 0x03)
      ∧ e2.pcbDone = true ∧ e.pcbDone = false then
    s.setLastNs ((byteAt e2.payload 0).setWidth 1)
  else s

/-- `respond(e, f)` of R82: finalize, emit the codec's log entries, transmit, record N(S). -/
def State.respond (s : State) (e : ResponseEntry) (f : Bytes) : State :=
  let r := finalize e f
  ((s.emitAll r.2).txFresh r.1.payload).recordNs e r.1

/-- The end of the run, `raise Fatal(reason)` (R12, R113): one status register and one log entry; nothing
is saved and no handler runs (R111). -/
def State.terminate (s : State) (reason : ExitReason) : State :=
  (s.setRun (.terminated reason)).log (.exit reason)

/-- Error code 2 and the end of the run it brings (R112, R113, R126). -/
def State.phyFailure (s : State) : State := (s.logError .phyEncodeFail).terminate .phyFail

/-- R85, first line: a terminated machine absorbs every event. -/
def whenRunning (s : State) (k : State → Result) : Result :=
  if s.run = .running then k s else .next s

/-- The environment delivers events behind those still waiting (R46, R114). -/
def State.deliver (s : State) (es : List Event) : State := { s with inputs := s.inputs ++ es }

/-- Take the oldest delivered event (R46, R115), if there is one. -/
def State.takeEvent (s : State) : Option (Event × State) :=
  match s.inputs with
  | [] => none
  | e :: es => some (e, { s with inputs := es })

end Sys2Proof.Machine
end

