-- ==== Sys2Proof/Machine/Rules.lean ====
section
/-! DEFINITION. The rules of the rows of the priority table (R65), the rule of a frame no row fires for
(R94), the rule of a frame during a WTX wait (R104), and the dispatch of a received frame by
`card_state` (R85). The instructions of Link.lean and Apdu.lean are made of these. -/

namespace Sys2Proof.Machine

/-- R94: an unrecognised frame is logged as error code 1; nothing else happens. -/
def unrecognisedRule (cls : FrameClass) (f : Bytes) (s : State) : State :=
  s.logError (.unrecognized f cls s.cardState)

/-- R104: during a WTX wait an acknowledgement is silent, and any other frame is error code 1. -/
def waitRule (cls : FrameClass) (f : Bytes) (s : State) : State :=
  if patWtxack f then s else s.logError (.unrecognized f cls .handleWtx)

/-- R88, row 1. -/
def wupbRule (s : State) : State :=
  (((s.enter .selecting).log (.trans [s.cardState, .selecting, .idle])).txCached .atqb).enter .idle

/-- R89, row 2. -/
def reqbRule (s : State) : State :=
  (((s.enter .requesting).log (.trans [.idle, .requesting, .idle])).txCached .atqb).enter .idle

/-- R90, row 3. -/
def attribRule (s : State) : State :=
  (((s.enter .halting).log (.trans [.idle, .halting, .halted])).txCached .ok).enter .halted

/-- R91, row 4. -/
def resetRule (s : State) : State :=
  ((((s.setActive false).setFileContext .none).setSelFile none).enter .idle).log
    (.trans [s.cardState, .idle])

/-- R97, row 7 for a known file: entry `k` of the file table, whose id is `id`. -/
def selectHitRule (id : Byte × Byte) (k : Nat) (e : FileEntry) (f : Bytes) (s : State) : State :=
  let s1 := ((((s.enter (.selectFile (some id))).setActive true).setSelFile (some k)).setFileContext
    .awaitingFirst).log (.trans [.idle, .selectFile (some id), .idle])
  (s1.respond (entrySel e) f).enter .idle

/-- R98, row 7 for an unknown file, or a frame too short to hold an id. -/
def selectMissRule (id : Option (Byte × Byte)) (f : Bytes) (s : State) : State :=
  let s1 := (((s.enter (.selectFile id)).setFileContext .invalid).setSelFile none).log
    (.trans [.idle, .selectFile id, .idle])
  (s1.respond (entryFnf s.cfg) f).enter .idle

/-- The first entry of the file table with this id, and its index (R97). -/
def fileAt (c : Cfg) (id : Byte × Byte) : Option (Nat × FileEntry) :=
  (findFile c id).bind fun k => (c.fileTable[k]?).map fun e => (k, e)

/-- Row 7: R97 if the frame names a file of the table, R98 otherwise. -/
def selectRule (f : Bytes) (s : State) : State :=
  match fid? f with
  | none => selectMissRule none f s
  | some id =>
    match fileAt s.cfg id with
    | none => selectMissRule (some id) f s
    | some (k, e) => selectHitRule id k e f s

/-- The end of R99: the chosen entry is sent and the phase is left. -/
def readRecordAnswer (e : ResponseEntry) (ctx : FileContext) (f : Bytes) (s : State) : State :=
  ((((s.enter .readRecord).setFileContext ctx).log (.trans [.idle, .readRecord, .idle])).respond e f).enter
    .idle

/-- R99 with record `n` due of file `e`. -/
def readDueRule (n : Nat) (e : FileEntry) (f : Bytes) (s : State) : Result :=
  match e.records[n - 1]? with
  | none => .next (readRecordAnswer (entryNmr s.cfg) .invalid f s)
  | some r =>
    if n < e.records.length then
      match FileContext.awaiting (n + 1) with
      | none => .fault .recordPastThird
      | some ctx => .next (readRecordAnswer (entryRec r) ctx f s)
    else .next (readRecordAnswer (entryRec r) .invalid f s)

/-- R99, row 8. When no record is due the answer depends on whether a file is selected. -/
def readRecordRule (f : Bytes) (s : State) : Result :=
  match s.fileContext.due with
  | none =>
    .next (readRecordAnswer (if s.selFile = none then entryFnf s.cfg else entryNmr s.cfg)
      s.fileContext f s)
  | some n =>
    match s.selFile.bind (fun k => s.cfg.fileTable[k]?) with
    | none => .fault .contextWithoutFile
    | some e => readDueRule n e f s

/-- R101, row 10: submit the APDU to the oracle, keep the frame, send the first S(WTX). -/
def iblockRule (f : Bytes) (s : State) : State :=
  let s1 := ((((s.enter .genericIBlock).setNextId (s.nextId + 1)).setReq
    (some ⟨s.nextId, apdu f⟩)).setLastIblock (some f)).enter .handleWtx
  ((s1.log (.trans [.idle, .genericIBlock, .handleWtx])).emit (.submit s.nextId (apdu f))).txFresh
    (wtxFrame s.cfg)

/-- R100, row 9, for the table entry `g`. -/
def getDataHitRule (g : GetDataEntry) (f : Bytes) (s : State) : State :=
  (((s.enter .getData).log (.trans [.idle, .getData, .idle])).respond (entryGd g) f).enter .idle

/-- R100: a GET DATA the table resolves is answered from it; one whose APDU is no key falls to row 10. -/
def getDataRule (f : Bytes) (s : State) : State :=
  match findGetData s.cfg (apdu f) with
  | some g => getDataHitRule g f s
  | none => iblockRule f s

/-- The rule a row names (R65). Rows 5 and 6 never fire, and no row has class `unknown`. -/
def rowRule (r : FrameClass) (cls : FrameClass) (f : Bytes) (s : State) : Result :=
  match r with
  | .wupb => .next (wupbRule s)
  | .reqb => .next (reqbRule s)
  | .attrib => .next (attribRule s)
  | .reset => .next (resetRule s)
  | .wtxack => .next (unrecognisedRule cls f s)
  | .halt => .next (unrecognisedRule cls f s)
  | .select => .next (selectRule f s)
  | .readRecord => readRecordRule f s
  | .getData => .next (getDataRule f s)
  | .iblock => .next (iblockRule f s)
  | .unknown => .next (unrecognisedRule cls f s)

/-- R65 over a list of rows: the first whose pattern and guard hold fires, else R94 (R67). -/
def firstRow (rs : List FrameClass) (cls : FrameClass) (f : Bytes) (s : State) : Result :=
  match rs.find? (fun r => rowPattern s.cfg r f && rowGuard r s) with
  | some r => rowRule r cls f s
  | none => .next (unrecognisedRule cls f s)

/-- R85 for a received frame: absorbed by a terminated machine, else recorded for audit, then handled by
`card_state`; `k` is what happens in `Idle` and `Halted`. -/
def onFrame (cls : FrameClass) (f : Bytes) (s : State) (k : State → Result) : Result :=
  whenRunning s fun s0 =>
    let s1 := s0.log (.rx f cls s0.cardState)
    match s0.cardState with
    | .noField => .next (unrecognisedRule cls f s1)
    | .handleWtx => .next (waitRule cls f s1)
    | .idle | .halted => k s1
    | .selecting | .requesting | .halting | .selectFile _ | .readRecord | .getData | .genericIBlock =>
      .fault .phaseAtBoundary

end Sys2Proof.Machine
end

