-- ==== Sys2Proof/Machine/Apdu.lean ====
section
/-! DEFINITION. The APDU instructions (42_apdu_commands.md): SELECT, READ_RECORD, GET_DATA and IBLOCK. A
frame whose own row's guard fails is tried against the rows after it (R65). -/

namespace Sys2Proof.Machine

/-- SELECT (R97, R98). -/
def execSelect (ns : Bit) (cla : Byte) (body : Bytes) (c0 c1 : Byte) (s : State) : Result :=
  let f := selectFrame s.cfg ns cla body c0 c1
  onFrame .select f s fun s1 =>
    if guardSelect s1 then .next (selectRule f s1)
    else firstRow [.readRecord, .getData, .iblock] .select f s1

/-- READ RECORD (R99). -/
def execReadRecord (ns : Bit) (cla : Byte) (body : Bytes) (c0 c1 : Byte) (s : State) : Result :=
  let f := readRecordFrame s.cfg ns cla body c0 c1
  onFrame .readRecord f s fun s1 =>
    if guardRead s1 then readRecordRule f s1
    else firstRow [.getData, .iblock] .readRecord f s1

/-- GET DATA (R100). -/
def execGetData (ns : Bit) (cla : Byte) (body : Bytes) (c0 c1 : Byte) (s : State) : Result :=
  let f := getDataFrame s.cfg ns cla body c0 c1
  onFrame .getData f s fun s1 =>
    if guardGetData s1 then .next (getDataRule f s1)
    else firstRow [.iblock] .getData f s1

/-- Generic I-block (R101): delegated to the oracle. It is the last row. -/
def execIblock (ns : Bit) (a : Bytes) (c0 c1 : Byte) (s : State) : Result :=
  let f := iFrame ns a c0 c1
  onFrame .iblock f s fun s1 =>
    if guardIblock s1 then .next (iblockRule f s1) else .next (unrecognisedRule .iblock f s1)

end Sys2Proof.Machine
end

