-- ==== Sys2Proof/Machine/Link.lean ====
section
/-! DEFINITION. The link-level instructions (41_link_commands.md): WUPB, REQB, ATTRIB, RESET, WTXACK,
HALT, UNRECOGNISED, FIELD_ON and RX_NONE. A frame whose own row's guard fails is tried against the rows
after it (R65). -/

namespace Sys2Proof.Machine

/-- WUPB (R88). With its guard false no later row matches, so R94 applies. -/
def execWupb (afi param c0 c1 : Byte) (s : State) : Result :=
  let f := wupbFrame afi param c0 c1
  onFrame .wupb f s fun s1 =>
    if guardWupb s1 then .next (wupbRule s1) else .next (unrecognisedRule .wupb f s1)

/-- REQB (R89). With its guard false no later row matches, so R94 applies. -/
def execReqb (afi param c0 c1 : Byte) (s : State) : Result :=
  let f := reqbFrame afi param c0 c1
  onFrame .reqb f s fun s1 =>
    if guardReqb s1 then .next (reqbRule s1) else .next (unrecognisedRule .reqb f s1)

/-- ATTRIB (R90). An 11-byte I-block whose ATTRIB guard fails is tried as SELECT, READ RECORD, GET DATA
and I-block (R66). -/
def execAttrib (first : Byte) (rest : Bytes) (s : State) : Result :=
  let f := attribFrame first rest
  onFrame .attrib f s fun s1 =>
    if guardAttrib s1 then .next (attribRule s1)
    else firstRow [.select, .readRecord, .getData, .iblock] .attrib f s1

/-- RESET (R91): its guard is true. -/
def execReset (c0 c1 : Byte) (s : State) : Result :=
  onFrame .reset (resetFrame c0 c1) s fun s1 => .next (resetRule s1)

/-- WTX-acknowledge: silent during a WTX wait (R104), unrecognised elsewhere (R92). -/
def execWtxack (wtxm c0 c1 : Byte) (s : State) : Result :=
  let f := wtxackFrame wtxm c0 c1
  onFrame .wtxack f s fun s1 => .next (unrecognisedRule .wtxack f s1)

/-- HALT (R93): classified and logged, with no transition. -/
def execHalt (pupi : Uid) (c0 c1 : Byte) (s : State) : Result :=
  let f := haltFrame pupi c0 c1
  onFrame .halt f s fun s1 => .next (unrecognisedRule .halt f s1)

/-- A frame of class `UNKNOWN` (R94). -/
def execUnrecognised (f : Bytes) (s : State) : Result :=
  onFrame .unknown f s fun s1 => .next (unrecognisedRule .unknown f s1)

/-- FIELD ON (R86): `NoField` becomes `Idle`; anywhere else nothing happens. -/
def execFieldOn (s : State) : Result :=
  whenRunning s fun s0 =>
    if s0.cardState = .noField then .next ((s0.enter .idle).log (.trans [.noField, .idle]))
    else .next s0

/-- RECEIVE TIMEOUT (R87): nothing happens, in every state. -/
def execRxNone (s : State) : Result := whenRunning s fun s0 => .next s0

end Sys2Proof.Machine
end

