-- ==== Sys2Proof/Machine/Termination.lean ====
section
/-! DEFINITION. The events that end a run (R113): NOFIELD_TIMEOUT, ABORT and PHY_FAIL. -/

namespace Sys2Proof.Machine

/-- NOFIELD TIMEOUT (R113). -/
def execNoFieldTimeout (s : State) : Result :=
  whenRunning s fun s0 => .next (s0.terminate .noFieldTimeout)

/-- The exit reason of an abort (R113). -/
def abortReason : AbortSource → ExitReason
  | .button => .abortButton
  | .host => .abortHost

/-- ABORT (R113). -/
def execAbort (who : AbortSource) (s : State) : Result :=
  whenRunning s fun s0 => .next (s0.terminate (abortReason who))

/-- PHY FAIL (R113): error code 2, then the exit. -/
def execPhyFail (s : State) : Result :=
  whenRunning s fun s0 => .next s0.phyFailure

end Sys2Proof.Machine
end

