-- ==== Sys2Proof/Machine/Wtx.lean ====
section
/-! DEFINITION. The WTX scheduler and the oracle bridge (43_wtx_oracle.md): ORACLE_REPLY and
WTX_ELAPSED. -/

namespace Sys2Proof.Machine

/-- R107: the reply is framed with the PCB of the retained I-block `b` and sent; the wait ends. -/
def replyRule (id : Ident) (p b : Bytes) (s : State) : State :=
  (((((s.log (.reply id p)).setReq none).setLastIblock none).enter .idle).log
    (.trans [.handleWtx, .idle])).respond (rawEntry p) b

/-- ORACLE REPLY: stray (R109), empty (R108) or the answer (R107). -/
def execOracleReply (id : Ident) (p : Bytes) (s : State) : Result :=
  whenRunning s fun s0 =>
    match s0.req with
    | none => .next (s0.log (.stray id p))
    | some r =>
      if r.id ≠ id then .next (s0.log (.stray id p))
      else if s0.cardState ≠ .handleWtx then .fault .requestOutsideWait
      else if p = [] then .next (s0.logError (.emptyReply id))
      else
        match s0.lastIblock with
        | none => .fault .waitWithoutBlock
        | some b => .next (replyRule id p b s0)

/-- WTX BUDGET ELAPSED: another S(WTX) during a wait (R105), ignored elsewhere (R106). -/
def execWtxElapsed (s : State) : Result :=
  whenRunning s fun s0 =>
    if s0.cardState = .handleWtx then
      match s0.req with
      | none => .fault .waitWithoutRequest
      | some r => .next ((s0.logError (.oracleTimeout r.id)).txFresh (wtxFrame s0.cfg))
    else .next s0

end Sys2Proof.Machine
end

