-- ==== Sys2Proof/Machine/Dispatch.lean ====
section
/-! DEFINITION. One arm per instruction (R85). -/

namespace Sys2Proof.Machine

def exec (i : Instr) (s : State) : Host.Outcome State Fault Refusal :=
  match i with
  | .wupb afi param c0 c1 => Sys2Proof.Machine.execWupb afi param c0 c1 s
  | .reqb afi param c0 c1 => Sys2Proof.Machine.execReqb afi param c0 c1 s
  | .attrib first rest => Sys2Proof.Machine.execAttrib first rest s
  | .reset c0 c1 => Sys2Proof.Machine.execReset c0 c1 s
  | .wtxack wtxm c0 c1 => Sys2Proof.Machine.execWtxack wtxm c0 c1 s
  | .halt pupi c0 c1 => Sys2Proof.Machine.execHalt pupi c0 c1 s
  | .select ns cla body c0 c1 => Sys2Proof.Machine.execSelect ns cla body c0 c1 s
  | .readRecord ns cla body c0 c1 => Sys2Proof.Machine.execReadRecord ns cla body c0 c1 s
  | .getData ns cla body c0 c1 => Sys2Proof.Machine.execGetData ns cla body c0 c1 s
  | .iblock ns a c0 c1 => Sys2Proof.Machine.execIblock ns a c0 c1 s
  | .unrecognised f => Sys2Proof.Machine.execUnrecognised f s
  | .fieldOn => Sys2Proof.Machine.execFieldOn s
  | .rxNone => Sys2Proof.Machine.execRxNone s
  | .oracleReply id p => Sys2Proof.Machine.execOracleReply id p s
  | .wtxElapsed => Sys2Proof.Machine.execWtxElapsed s
  | .noFieldTimeout => Sys2Proof.Machine.execNoFieldTimeout s
  | .abort who => Sys2Proof.Machine.execAbort who s
  | .phyFail => Sys2Proof.Machine.execPhyFail s

end Sys2Proof.Machine
end

