-- ==== Sys2Proof/Machine/Step.lean ====
section
/-! DEFINITION. One step takes the oldest delivered event, decodes it and executes it (R51, R85). -/

namespace Sys2Proof.Machine

/-- The step. With no event delivered the machine waits, unchanged: DESIGN CHOICE, log
entry 2. -/
def step (s : State) : Host.Outcome State Fault Refusal :=
  match s.takeEvent with
  | none => .next s
  | some (e, s0) => exec (decode s0.cfg e) s0

/-- The frame of a table word, put in front of the events still waiting: the next step receives it
(log entry 10). -/
def State.withFetchWord (s : State) (nbits w : Nat) : State :=
  { s with inputs := .rx (tableFrame nbits w) :: s.inputs }

end Sys2Proof.Machine
end

