-- ==== Sys2Proof/Machine/Session.lean ====
section
/-! DEFINITION. Session creation, the machine's only reset (R126): configuration check, identifier,
register values, then the two outcomes the environment supplies. -/

namespace Sys2Proof.Machine

/-- `S.prep` when the PHY setup fails, before anything is prepared. R126 gives it no value and says it is
never observed; DESIGN CHOICE (log entry 6): empty. -/
def unprepared : Prep := ⟨[], []⟩

/-- `init(C, host_uid, phy_ok, encode_ok)` of R126; `none` is "refuse: no session is created". -/
def initSession (c : Cfg) (hostUid : Option Bytes) (phyOk encodeOk : Bool) : Option State :=
  let c1 : Cfg := { c with hostUid := hostUid }
  if cfgWf c1 = false then none
  else
    match sessionUid c1 with
    | none => none
    | some u =>
      if phyOk = false then
        some ({ State.session c1 u with prep := unprepared }.terminate .phySetupFail)
      else if encodeOk = false then some (State.session c1 u).phyFailure
      else some (State.session c1 u)

end Sys2Proof.Machine
end

