-- ==== Sys2Proof/Safety.lean ====
section
/-! DEFINITION. The terms in which claims about runs are made: the invariants of a session (R36, R25, R33),
the reading of a step's new outputs, the priority table applied as a whole (R85), runs over a list of
events, and the environment's duty (R39). -/

namespace Sys2Proof.Machine

/-- R36, items 1 to 6. Item 4's "every register holds its reset value" is read of the registers a step
can have written before the field came on: `S.run` is left out, since an abort in `NoField` writes it
(DEDUCED, log entry 7), and the registers fixed at initialisation are `SessionFixed`'s. -/
structure Consistent (s : State) : Prop where
  /-- Item 1. -/
  stable : s.cardState.stable = true
  /-- Item 2. -/
  activeContext : s.active = true →
    (s.cardState = .idle ∨ s.cardState = .handleWtx) ∧ s.fileContext ≠ .none
  /-- Item 3, first equivalence. -/
  waitRequest : s.cardState = .handleWtx ↔ s.req ≠ none
  /-- Item 3, second equivalence. -/
  requestBlock : s.req ≠ none ↔ s.lastIblock ≠ none
  /-- Item 3, implication. -/
  waitActive : s.cardState = .handleWtx → s.active = true
  /-- Item 4, `Halted`. -/
  haltedInactive : s.cardState = .halted → s.active = false
  /-- Item 4, `NoField`. -/
  noFieldFresh : s.cardState = .noField →
    s.active = false ∧ s.fileContext = .none ∧ s.selFile = none ∧ s.lastNs = 0
      ∧ s.lastIblock = none ∧ s.req = none ∧ s.nextId = 0
  /-- Item 5. -/
  recordDue : ∀ n, s.fileContext.due = some n →
    ∃ k e, s.selFile = some k ∧ s.cfg.fileTable[k]? = some e ∧ n ≤ max 1 e.records.length
  /-- Item 6. -/
  iblockKept : ∀ b, s.lastIblock = some b →
    3 ≤ b.length ∧ (byteAt b 0 = 0x02 ∨ byteAt b 0 = 0x03)

/-- What session creation fixes: an admitted configuration (R95), the identifier (R25) and the prepared
frames (R33), which exist unless PHY setup failed (R126). -/
structure SessionFixed (s : State) : Prop where
  cfgOk : cfgWf s.cfg = true
  uid : sessionUid s.cfg = some s.uidOverride
  prepared : s.run ≠ .terminated .phySetupFail → s.prep = prepare s.cfg s.uidOverride

/-- The outstanding request belongs to the retained I-block and is the latest one submitted (R27, R28,
R101). -/
structure RequestMatches (s : State) : Prop where
  payload : ∀ r b, s.req = some r → s.lastIblock = some b → r.sentPayload = apdu b
  latest : ∀ r, s.req = some r → s.nextId = r.id + 1

/-- What holds at every step boundary of a session. -/
structure SessionInv (s : State) : Prop where
  consistent : Consistent s
  fixed : SessionFixed s
  matching : RequestMatches s

/-- The outputs a step from `s` to `t` has appended. -/
def newOutputs (s t : State) : List Output := t.outs.drop s.outs.length

/-- Whether an output is a transmission. -/
def isTx : Output → Bool
  | .tx _ _ => true
  | .submit _ _ => false
  | .log _ => false

/-- How many frames a list of outputs transmits. -/
def txCount (os : List Output) : Nat := os.countP isTx

/-- R79 of one output: a transmitted frame ends in its CRC. -/
def txCrcOk : Output → Bool
  | .tx b _ => crcValid b
  | .submit _ _ => true
  | .log _ => true

/-- R50 of one output: a transmission that names a cached buffer sends the bytes prepared under that
name. -/
def cachedOk (p : Prep) : Output → Bool
  | .tx b (.cached .atqb) => b == p.atqb
  | .tx b (.cached .ok) => b == p.ok
  | .tx _ .fresh => true
  | .submit _ _ => true
  | .log _ => true

/-- A frame without its last two bytes, the CRC as the reader sent it (R54). -/
def bareFrame (f : Bytes) : Bytes := f.take (f.length - 2)

/-- An error entry with the inbound frame it records bare. -/
def bareError : ErrorEntry → ErrorEntry
  | .unrecognized f cls st => .unrecognized (bareFrame f) cls st
  | .phyEncodeFail => .phyEncodeFail
  | .oracleTimeout id => .oracleTimeout id
  | .emptyReply id => .emptyReply id
  | .unknownPcb f => .unknownPcb (bareFrame f)

/-- A log entry with the inbound frame it records bare. -/
def bareLog : LogEntry → LogEntry
  | .rx f cls st => .rx (bareFrame f) cls st
  | .trans path => .trans path
  | .error e => .error (bareError e)
  | .reply id p => .reply id p
  | .stray id p => .stray id p
  | .exit reason => .exit reason

/-- An output with the inbound frame it records bare; what is transmitted or submitted stays whole. -/
def bareOutput : Output → Output
  | .tx b src => .tx b src
  | .submit id p => .submit id p
  | .log l => .log (bareLog l)

/-- The answer of a step from `s`, with the CRC bytes of inbound frames taken out of the two places that keep
them as received: the new log entries and the retained I-block (R27, R119). -/
def bareResult (s : State) : Result → Result
  | .next t => .next
    { t with
      lastIblock := t.lastIblock.map bareFrame
      outs := t.outs.take s.outs.length ++ (newOutputs s t).map bareOutput }
  | .fault r => .fault r
  | .refused r => .refused r

/-- R85 for a received frame, with the whole table of R65 consulted in order. -/
def priorityDispatch (f : Bytes) (s : State) : Result :=
  onFrame (classify s.cfg f) f s (firstRow rows (classify s.cfg f) f)

/-- The events of a list, executed one after another, each as R51's one step. -/
def runEvents : List Event → State → Result
  | [], s => .next s
  | e :: es, s =>
    match exec (decode s.cfg e) s with
    | .next t => runEvents es t
    | .fault r => .fault r
    | .refused r => .refused r

/-- The environment's duty of R39: no delivered frame is longer than `P_MAX_FRAME`. The step does not
check it (log entry 9). -/
def FramesBounded (s : State) : Prop := ∀ f, .rx f ∈ s.inputs → f.length ≤ s.cfg.maxFrame

end Sys2Proof.Machine
end

