-- ==== Sys2Proof/Certificates/Slice0/Obligations.lean ====
section
/-! DEFINITION. The statements for the provers. Those about an instruction's result give the whole next
state, so they are its frame and its completion statement too: a field the record update does not name
is unchanged. -/

open Sys2Proof Sys2Proof.Machine

/-! ### The step -/

/-- R51: one event is one step. The step takes the oldest delivered event, and runs the instruction it
stands for on the state without that event. -/
def Obligations.StepRunsDecodedEvent : Prop :=
  ∀ (s : State) (i : Instr) (es : List Event), WellFormed s.cfg i →
    s.inputs = encode s.cfg i :: es → step s = exec i { s with inputs := es }

/-- The model's own choice (log entry 2): with no event delivered, a step leaves the state as it is. -/
def Obligations.StepWithoutEventWaits : Prop :=
  ∀ s : State, s.inputs = [] → step s = .next s

/-- R46 and R115: events are executed one at a time, in the order delivered; as many steps as there are
events delivered give what executing the list of events gives, and leave none waiting. -/
def Obligations.EventsRunInArrivalOrder : Prop :=
  ∀ (es : List Event) (s t : State), runEvents es { s with inputs := [] } = .next t →
    Sys2Proof.core.run es.length { s with inputs := es } = .next t ∧ t.inputs = []

/-- R85, first line, and R113: a terminated machine absorbs every instruction. -/
def Obligations.TerminatedAbsorbsEverything : Prop :=
  ∀ (i : Instr) (s : State), s.run ≠ .running → exec i s = .next s

/-- R65 and R85: the meaning of the instruction a frame decodes to is what the priority table, consulted
row by row from the first, gives for the frame. -/
def Obligations.MeaningIsPriorityTable : Prop :=
  ∀ (f : Bytes) (s : State), exec (decodeFrame s.cfg f) s = priorityDispatch f s

/-! ### Encoding -/

/-- Decoding the event that encodes a well-formed instruction gives the instruction back, with every
operand. -/
def Obligations.DecodeOfEncode : Prop :=
  ∀ (c : Cfg) (i : Instr), WellFormed c i → decode c (encode c i) = i

/-- Encoding the instruction an event decodes to gives the event back: no byte of a frame is lost. -/
def Obligations.EncodeOfDecode : Prop :=
  ∀ (c : Cfg) (e : Event), encode c (decode c e) = e

/-- R68: every frame the PHY can deliver decodes to a well-formed instruction; no encoding is illegal. -/
def Obligations.EveryFrameDecodesWellFormed : Prop :=
  ∀ (c : Cfg) (f : Bytes), f.length ≤ c.maxFrame → WellFormed c (decodeFrame c f)

/-- A few frames of 95_test_vectors.md decode to the instruction they stand for. -/
def Obligations.WrittenFramesDecode : Prop :=
  decodeFrame Cfg.initial [0x05, 0x00, 0x08, 0x39, 0x73] = .wupb 0x00 0x08 0x39 0x73
    ∧ decodeFrame Cfg.initial [0x05, 0x00, 0x00, 0x71, 0xFF] = .reqb 0x00 0x00 0x71 0xFF
    ∧ decodeFrame Cfg.initial [0x0C, 0x14, 0x3A] = .reset 0x14 0x3A
    ∧ decodeFrame Cfg.initial [0xF2, 0x05, 0x52, 0x17] = .wtxack 0x05 0x52 0x17
    ∧ decodeFrame Cfg.initial [0x02, 0x00, 0xB2, 0x01, 0x04, 0x00, 0x8F, 0x9A]
      = .readRecord 0 0x00 [0x01, 0x04, 0x00] 0x8F 0x9A
    ∧ decodeFrame Cfg.initial [0x03, 0xE3, 0xC2] = .iblock 1 [] 0xE3 0xC2

/-- R54: the block never checks the CRC bytes of an inbound frame. With another pair of them the frame has
the same class, and the instruction it decodes to gives the same answer but for the frame as the log and the
retained I-block keep it; and the reply to a retained I-block, its one reader, is the same but for that frame
where it is still kept or logged. -/
def Obligations.InboundCrcNeverRead : Prop :=
  (∀ (c : Cfg) (f : Bytes) (a b a' b' : Byte), classify c (f ++ [a, b]) = classify c (f ++ [a', b']))
  ∧ (∀ (f : Bytes) (a b a' b' : Byte) (s : State),
    bareResult s (exec (decodeFrame s.cfg (f ++ [a, b])) s)
      = bareResult s (exec (decodeFrame s.cfg (f ++ [a', b'])) s))
  ∧ (∀ (f : Bytes) (a b a' b' : Byte) (id : Ident) (p : Bytes) (s : State), f ≠ [] →
    bareResult s (exec (.oracleReply id p) { s with lastIblock := some (f ++ [a, b]) })
      = bareResult s (exec (.oracleReply id p) { s with lastIblock := some (f ++ [a', b']) }))

/-! ### Frame codec -/

/-- R78: finalizing an entry twice on the same frame gives the bytes of finalizing it once. -/
def Obligations.FinalizeIsIdempotent : Prop :=
  ∀ (e : ResponseEntry) (f : Bytes),
    (finalize (finalize e f).1 f).1.payload = (finalize e f).1.payload

/-- R77 and R129 for an I-block: the response is the inbound PCB, the payload, and the CRC over both. -/
def Obligations.FinalizePrefixesThenChecks : Prop :=
  ∀ (p f : Bytes), isIBlock f = true →
    finalize (rawEntry p) f
      = (⟨byteAt f 0 :: p ++ crcBytes (byteAt f 0 :: p), true, true⟩, [])

/-- R72, R75: a frame of unknown PCB class leaves the response unprefixed and its flag false, the CRC is
still appended, and error code 5 is logged. -/
def Obligations.UnknownPcbLeavesUnprefixed : Prop :=
  ∀ (p f : Bytes), f.head? ≠ some 0x02 → f.head? ≠ some 0x03 → f.head? ≠ some 0x05 →
    finalize (rawEntry p) f = (⟨p ++ crcBytes p, false, true⟩, [.log (.error (.unknownPcb f))])

/-- X8: the CRC over a string and its CRC is the CRC_B residue, `47 0F`, whatever the string. -/
def Obligations.CrcOfCheckedStringIsResidue : Prop :=
  ∀ d : Bytes, crcBytes (crcFrame d) = [0x47, 0x0F]

/-- R63 and R102: every S(WTX) is `F2`, a WTXM in 1..59 with bits 7..6 zero, and the CRC of the two; the
WTXM is the configured units where they are in range. -/
def Obligations.WtxFrameIsWellShaped : Prop :=
  ∀ c : Cfg, ∃ m : Byte,
    wtxFrame c = [0xF2, m] ++ crcBytes [0xF2, m]
      ∧ 1 ≤ m.toNat ∧ m.toNat ≤ 59 ∧ m &&& 0xC0 = 0
      ∧ (1 ≤ c.wtxUnits → c.wtxUnits ≤ 59 → m.toNat = c.wtxUnits)
      ∧ (c.wtxUnits = 0 → m.toNat = 1) ∧ (59 < c.wtxUnits → m.toNat = 59)

/-- R80: the ATQB is the template with bytes 1..4 replaced by the identifier, then the CRC over the
replaced bytes. -/
def Obligations.AtqbCarriesUidUnderCrc : Prop :=
  ∀ (c : Cfg) (u : Uid), c.defaultUid.length = 4 → c.atqbAppData.length = 4 →
    let t := [0x50, u.b0, u.b1, u.b2, u.b3] ++ c.atqbAppData
      ++ [c.atqbBitRate, c.atqbMaxFrame, c.atqbFwi]
    atqbFrame c u = t ++ crcBytes t ∧ (atqbFrame c u).length = 14

/-- R112: the code of each error kind; the kind that is fatal has code 2; and a step that logs an error
leaves the run terminated exactly when the error is fatal. -/
def Obligations.ErrorCodesAreNumbered : Prop :=
  (∀ (f : Bytes) (cls : FrameClass) (st : CardState) (id : Ident),
    errorCode (.unrecognized f cls st) = 1 ∧ errorCode .phyEncodeFail = 2
      ∧ errorCode (.oracleTimeout id) = 3 ∧ errorCode (.emptyReply id) = 4
      ∧ errorCode (.unknownPcb f) = 5)
  ∧ (∀ e, errorFatal e = true ↔ errorCode e = 2)
  ∧ (∀ (s t : State) (e : ErrorEntry), step s = .next t → .log (.error e) ∈ newOutputs s t →
    (errorFatal e = true ↔ ∃ reason, t.run = .terminated reason))

/-! ### Link commands -/

/-- R86: FIELD ON takes `NoField` to `Idle`, and does nothing anywhere else. -/
def Obligations.FieldOnEntersIdle : Prop :=
  ∀ s : State, s.run = .running →
    (s.cardState = .noField → exec .fieldOn s = .next
      { s with cardState := .idle, outs := s.outs ++ [.log (.trans [.noField, .idle])] })
    ∧ (s.cardState ≠ .noField → exec .fieldOn s = .next s)

/-- R87: a receive timeout changes nothing and emits nothing, in every state. -/
def Obligations.RxNoneChangesNothing : Prop :=
  ∀ s : State, exec .rxNone s = .next s

/-- R88: WUPB in `Idle` or `Halted` while not active sends the prepared ATQB and ends in `Idle`; while
active it is an unrecognised frame. -/
def Obligations.WupbSendsAtqb : Prop :=
  ∀ (afi param c0 c1 : Byte) (s : State), s.run = .running →
    (s.cardState = .idle ∨ s.cardState = .halted) →
    (s.active = false → exec (.wupb afi param c0 c1) s = .next
      { s with
        cardState := .idle
        outs := s.outs ++
          [.log (.rx [0x05, afi, param, c0, c1] .wupb s.cardState),
           .log (.trans [s.cardState, .selecting, .idle]),
           .tx s.prep.atqb (.cached .atqb)] })
    ∧ (s.active = true → exec (.wupb afi param c0 c1) s = .next
      { s with
        outs := s.outs ++
          [.log (.rx [0x05, afi, param, c0, c1] .wupb s.cardState),
           .log (.error (.unrecognized [0x05, afi, param, c0, c1] .wupb s.cardState))] })

/-- R89: REQB in `Idle` while not active sends the prepared ATQB and stays in `Idle`; in `Halted`, or
while active, it is an unrecognised frame. -/
def Obligations.ReqbSendsAtqb : Prop :=
  ∀ (afi param c0 c1 : Byte) (s : State), s.run = .running →
    (s.cardState = .idle → s.active = false → exec (.reqb afi param c0 c1) s = .next
      { s with
        cardState := .idle
        outs := s.outs ++
          [.log (.rx [0x05, afi, param, c0, c1] .reqb .idle),
           .log (.trans [.idle, .requesting, .idle]),
           .tx s.prep.atqb (.cached .atqb)] })
    ∧ (s.cardState = .halted ∨ (s.cardState = .idle ∧ s.active = true) →
      exec (.reqb afi param c0 c1) s = .next
      { s with
        outs := s.outs ++
          [.log (.rx [0x05, afi, param, c0, c1] .reqb s.cardState),
           .log (.error (.unrecognized [0x05, afi, param, c0, c1] .reqb s.cardState))] })

/-- R90: ATTRIB in `Idle` while not active sends the prepared OK frame and ends in `Halted`; in `Halted`
while not active it is an unrecognised frame. -/
def Obligations.AttribSendsOk : Prop :=
  ∀ (first : Byte) (rest : Bytes) (s : State), s.run = .running → s.active = false →
    (s.cardState = .idle → exec (.attrib first rest) s = .next
      { s with
        cardState := .halted
        outs := s.outs ++
          [.log (.rx (first :: rest) .attrib .idle),
           .log (.trans [.idle, .halting, .halted]),
           .tx s.prep.ok (.cached .ok)] })
    ∧ (s.cardState = .halted → exec (.attrib first rest) s = .next
      { s with
        outs := s.outs ++
          [.log (.rx (first :: rest) .attrib .halted),
           .log (.error (.unrecognized (first :: rest) .attrib .halted))] })

/-- R66: an 11-byte SELECT of a known file, which is of class ATTRIB, is answered as a SELECT while
active. -/
def Obligations.AttribShapedSelectFallsThrough : Prop :=
  ∀ (ns : Bit) (cla p1 p2 lc d0 d1 le c0 c1 : Byte) (k : Nat) (e : FileEntry) (s : State),
    s.run = .running → s.cardState = .idle → s.active = true →
    fileAt s.cfg (d0, d1) = some (k, e) →
    let f := pcbOf ns :: [cla, s.cfg.insSelect, p1, p2, lc, d0, d1, le, c0, c1]
    exec (.attrib (pcbOf ns) [cla, s.cfg.insSelect, p1, p2, lc, d0, d1, le, c0, c1]) s = .next
      { s with
        fileContext := .awaitingFirst
        selFile := some k
        lastNs := ns
        outs := s.outs ++
          [.log (.rx f .attrib .idle),
           .log (.trans [.idle, .selectFile (some (d0, d1)), .idle]),
           .tx (crcFrame (pcbOf ns :: e.selectResp)) .fresh] }

/-- R91: RESET in `Idle` or `Halted` clears `active` and the file context, ends in `Idle` and sends
nothing; in `NoField` and during a WTX wait it is an unrecognised frame. -/
def Obligations.ResetClearsFileContext : Prop :=
  ∀ (c0 c1 : Byte) (s : State), s.run = .running →
    (s.cardState = .idle ∨ s.cardState = .halted → exec (.reset c0 c1) s = .next
      { s with
        cardState := .idle
        active := false
        fileContext := .none
        selFile := none
        outs := s.outs ++
          [.log (.rx [0x0C, c0, c1] .reset s.cardState), .log (.trans [s.cardState, .idle])] })
    ∧ (s.cardState = .noField ∨ s.cardState = .handleWtx → exec (.reset c0 c1) s = .next
      { s with
        outs := s.outs ++
          [.log (.rx [0x0C, c0, c1] .reset s.cardState),
           .log (.error (.unrecognized [0x0C, c0, c1] .reset s.cardState))] })

/-- R92: a WTX-acknowledge outside a WTX wait is an unrecognised frame, and R104: during the wait it is
recorded and nothing else happens. -/
def Obligations.WtxackOnlyRecorded : Prop :=
  ∀ (m c0 c1 : Byte) (s : State), s.run = .running →
    (s.cardState = .handleWtx → exec (.wtxack m c0 c1) s = .next
      { s with outs := s.outs ++ [.log (.rx [0xF2, m, c0, c1] .wtxack .handleWtx)] })
    ∧ (s.cardState = .noField ∨ s.cardState = .idle ∨ s.cardState = .halted →
      exec (.wtxack m c0 c1) s = .next
      { s with
        outs := s.outs ++
          [.log (.rx [0xF2, m, c0, c1] .wtxack s.cardState),
           .log (.error (.unrecognized [0xF2, m, c0, c1] .wtxack s.cardState))] })

/-- R93: HALT is recorded with its class and is an unrecognised frame, in every stable state. -/
def Obligations.HaltHasNoTransition : Prop :=
  ∀ (u : Uid) (c0 c1 : Byte) (s : State), s.run = .running → s.cardState.stable = true →
    let f := [0x50, u.b0, u.b1, u.b2, u.b3, c0, c1]
    exec (.halt u c0 c1) s = .next
      { s with
        outs := s.outs ++
          [.log (.rx f .halt s.cardState), .log (.error (.unrecognized f .halt s.cardState))] }

/-- R94 for a frame of class `UNKNOWN`: it is recorded and is an unrecognised frame, in `NoField`, `Idle`
and `Halted`. -/
def Obligations.UnknownFrameOnlyLogged : Prop :=
  ∀ (f : Bytes) (s : State), s.run = .running →
    (s.cardState = .noField ∨ s.cardState = .idle ∨ s.cardState = .halted) →
    exec (.unrecognised f) s = .next
      { s with
        outs := s.outs ++
          [.log (.rx f .unknown s.cardState), .log (.error (.unrecognized f .unknown s.cardState))] }

/-- R94 and R67: any frame in `NoField`, and any frame in `Idle` or `Halted` for which no row of the
table fires, is recorded with its class and logged as unrecognised; nothing else changes. -/
def Obligations.FrameWithoutRowOnlyLogged : Prop :=
  ∀ (f : Bytes) (s : State), s.run = .running →
    (s.cardState = .noField ∨ ((s.cardState = .idle ∨ s.cardState = .halted)
      ∧ ∀ r ∈ rows, rowPattern s.cfg r f = true → rowGuard r s = false)) →
    exec (decodeFrame s.cfg f) s = .next
      { s with
        outs := s.outs ++
          [.log (.rx f (classify s.cfg f) s.cardState),
           .log (.error (.unrecognized f (classify s.cfg f) s.cardState))] }

/-! ### APDU commands -/

/-- R97: SELECT of a known file opens its context at the first record and sends the file's select
response under the inbound PCB; the file is the first in table order with the id. -/
def Obligations.SelectOpensKnownFile : Prop :=
  ∀ (ns : Bit) (cla p1 p2 lc d0 d1 c0 c1 : Byte) (tail : Bytes) (k : Nat) (e : FileEntry) (s : State),
    s.run = .running →
    (s.cardState = .idle ∨ (s.cardState = .halted ∧ s.active = true)) →
    s.cfg.fileTable[k]? = some e → e.fid = [d0, d1] →
    (∀ j e', j < k → s.cfg.fileTable[j]? = some e' → e'.fid ≠ [d0, d1]) →
    let f := iFrame ns (cla :: s.cfg.insSelect :: p1 :: p2 :: lc :: d0 :: d1 :: tail) c0 c1
    exec (.select ns cla (p1 :: p2 :: lc :: d0 :: d1 :: tail) c0 c1) s = .next
      { s with
        cardState := .idle
        active := true
        selFile := some k
        fileContext := .awaitingFirst
        lastNs := ns
        outs := s.outs ++
          [.log (.rx f .select s.cardState),
           .log (.trans [.idle, .selectFile (some (d0, d1)), .idle]),
           .tx (crcFrame (pcbOf ns :: e.selectResp)) .fresh] }

/-- R98: SELECT of an id no table entry has, and SELECT too short to hold an id, closes the file context,
leaves `active` alone and sends the "file not found" response. -/
def Obligations.SelectMissesUnknownFile : Prop :=
  ∀ (ns : Bit) (cla c0 c1 : Byte) (body : Bytes) (s : State),
    s.run = .running →
    (s.cardState = .idle ∨ (s.cardState = .halted ∧ s.active = true)) →
    let f := iFrame ns (cla :: s.cfg.insSelect :: body) c0 c1
    let answer (id : Option (Byte × Byte)) : State :=
      { s with
        cardState := .idle
        selFile := none
        fileContext := .invalid
        lastNs := ns
        outs := s.outs ++
          [.log (.rx f .select s.cardState),
           .log (.trans [.idle, .selectFile id, .idle]),
           .tx (crcFrame (pcbOf ns :: s.cfg.swFileNotFound)) .fresh] }
    (body.length < 5 → exec (.select ns cla body c0 c1) s = .next (answer none))
    ∧ (∀ p1 p2 lc d0 d1 tail, body = p1 :: p2 :: lc :: d0 :: d1 :: tail →
        (∀ e ∈ s.cfg.fileTable, e.fid ≠ [d0, d1]) →
        exec (.select ns cla body c0 c1) s = .next (answer (some (d0, d1))))

/-- R99: READ RECORD while active sends the record due and moves on to the next, or to `Invalid` after
the last; a file without records, and a context with no record due, answer with the error responses. -/
def Obligations.ReadRecordSendsRecordDue : Prop :=
  ∀ (ns : Bit) (cla c0 c1 : Byte) (body : Bytes) (s : State),
    s.run = .running → (s.cardState = .idle ∨ s.cardState = .halted) → s.active = true →
    let f := iFrame ns (cla :: s.cfg.insReadRecord :: body) c0 c1
    let answer (ctx : FileContext) (payload : Bytes) : State :=
      { s with
        cardState := .idle
        fileContext := ctx
        lastNs := ns
        outs := s.outs ++
          [.log (.rx f .readRecord s.cardState),
           .log (.trans [.idle, .readRecord, .idle]),
           .tx (crcFrame (pcbOf ns :: payload)) .fresh] }
    (∀ n k e, s.fileContext.due = some n → s.selFile = some k → s.cfg.fileTable[k]? = some e →
      (∀ r ctx, e.records[n - 1]? = some r → n < e.records.length →
        FileContext.awaiting (n + 1) = some ctx →
        exec (.readRecord ns cla body c0 c1) s = .next (answer ctx r))
      ∧ (∀ r, e.records[n - 1]? = some r → n = e.records.length →
        exec (.readRecord ns cla body c0 c1) s = .next (answer .invalid r))
      ∧ (e.records.length < n →
        exec (.readRecord ns cla body c0 c1) s = .next (answer .invalid s.cfg.swNoMoreRecord)))
    ∧ (s.fileContext = .invalid → s.selFile = none →
      exec (.readRecord ns cla body c0 c1) s = .next (answer .invalid s.cfg.swFileNotFound))
    ∧ (s.fileContext = .invalid → s.selFile ≠ none →
      exec (.readRecord ns cla body c0 c1) s = .next (answer .invalid s.cfg.swNoMoreRecord))

/-- R100: GET DATA while active whose APDU is a key of the table is answered with the response of the
first entry that has the key; the file context is unchanged. -/
def Obligations.GetDataAnsweredFromTable : Prop :=
  ∀ (ns : Bit) (cla c0 c1 : Byte) (body : Bytes) (j : Nat) (g : GetDataEntry) (s : State),
    s.run = .running → (s.cardState = .idle ∨ s.cardState = .halted) → s.active = true →
    s.cfg.getDataTable[j]? = some g → g.apdu = cla :: s.cfg.insGetData :: body →
    (∀ j' g', j' < j → s.cfg.getDataTable[j']? = some g' →
      g'.apdu ≠ cla :: s.cfg.insGetData :: body) →
    exec (.getData ns cla body c0 c1) s = .next
      { s with
        cardState := .idle
        lastNs := ns
        outs := s.outs ++
          [.log (.rx (iFrame ns (cla :: s.cfg.insGetData :: body) c0 c1) .getData s.cardState),
           .log (.trans [.idle, .getData, .idle]),
           .tx (crcFrame (pcbOf ns :: g.resp)) .fresh] }

/-- R101: a generic I-block while active submits its APDU under the next id, keeps the frame, sends the
first S(WTX) and ends in `HandleWtx`. -/
def Obligations.IblockSubmitsToOracle : Prop :=
  ∀ (ns : Bit) (a : Bytes) (c0 c1 : Byte) (s : State),
    s.run = .running → (s.cardState = .idle ∨ s.cardState = .halted) → s.active = true →
    exec (.iblock ns a c0 c1) s = .next
      { s with
        cardState := .handleWtx
        nextId := s.nextId + 1
        req := some ⟨s.nextId, a⟩
        lastIblock := some (iFrame ns a c0 c1)
        outs := s.outs ++
          [.log (.rx (iFrame ns a c0 c1) .iblock s.cardState),
           .log (.trans [.idle, .genericIBlock, .handleWtx]),
           .submit s.nextId a,
           .tx (wtxFrame s.cfg) .fresh] }

/-- R65, rows 7 to 10: with their guards false, SELECT in `Halted`, and READ RECORD, GET DATA and a
generic I-block in `Idle` or `Halted`, all while not active, are unrecognised frames. -/
def Obligations.InactiveApdusOnlyLogged : Prop :=
  ∀ (ns : Bit) (cla c0 c1 : Byte) (body a : Bytes) (s : State),
    s.run = .running → (s.cardState = .idle ∨ s.cardState = .halted) → s.active = false →
    let logged (f : Bytes) (cls : FrameClass) : State :=
      { s with
        outs := s.outs ++
          [.log (.rx f cls s.cardState), .log (.error (.unrecognized f cls s.cardState))] }
    (s.cardState = .halted → exec (.select ns cla body c0 c1) s
      = .next (logged (iFrame ns (cla :: s.cfg.insSelect :: body) c0 c1) .select))
    ∧ exec (.readRecord ns cla body c0 c1) s
      = .next (logged (iFrame ns (cla :: s.cfg.insReadRecord :: body) c0 c1) .readRecord)
    ∧ exec (.getData ns cla body c0 c1) s
      = .next (logged (iFrame ns (cla :: s.cfg.insGetData :: body) c0 c1) .getData)
    ∧ exec (.iblock ns a c0 c1) s = .next (logged (iFrame ns a c0 c1) .iblock)

/-! ### WTX and oracle -/

/-- R104: during a WTX wait every frame leaves every register as it is; an acknowledgement is only
recorded, any other frame is logged as unrecognised too. -/
def Obligations.FramesIgnoredDuringWait : Prop :=
  ∀ (f : Bytes) (s : State), s.run = .running → s.cardState = .handleWtx →
    exec (decodeFrame s.cfg f) s = .next
      { s with
        outs := s.outs ++ .log (.rx f (classify s.cfg f) .handleWtx) ::
          (if f.length = 4 ∧ f.head? = some 0xF2 then []
           else [.log (.error (.unrecognized f (classify s.cfg f) .handleWtx))]) }

/-- R105: the WTX budget elapsing during a wait logs the timeout and sends one more S(WTX), and R106: it
does nothing elsewhere. -/
def Obligations.WtxElapsedResends : Prop :=
  ∀ s : State, s.run = .running →
    (∀ r, s.cardState = .handleWtx → s.req = some r → exec .wtxElapsed s = .next
      { s with
        outs := s.outs ++ [.log (.error (.oracleTimeout r.id)), .tx (wtxFrame s.cfg) .fresh] })
    ∧ (s.cardState = .noField ∨ s.cardState = .idle ∨ s.cardState = .halted →
      exec .wtxElapsed s = .next s)

/-- R107: a non-empty reply to the outstanding request is framed with the PCB of the retained I-block and
sent; the wait ends in `Idle` with no request and no retained I-block. -/
def Obligations.OracleReplyAnswersReader : Prop :=
  ∀ (p b : Bytes) (r : Request) (s : State),
    s.run = .running → s.cardState = .handleWtx → s.req = some r → s.lastIblock = some b →
    isIBlock b = true → p ≠ [] →
    exec (.oracleReply r.id p) s = .next
      { s with
        cardState := .idle
        req := none
        lastIblock := none
        lastNs := nsOf b
        outs := s.outs ++
          [.log (.reply r.id p),
           .log (.trans [.handleWtx, .idle]),
           .tx (crcFrame (byteAt b 0 :: p)) .fresh] }

/-- R108: an empty reply to the outstanding request is error code 4, and the wait goes on. -/
def Obligations.EmptyReplyKeepsWaiting : Prop :=
  ∀ (r : Request) (s : State), s.run = .running → s.cardState = .handleWtx → s.req = some r →
    exec (.oracleReply r.id []) s = .next
      { s with outs := s.outs ++ [.log (.error (.emptyReply r.id))] }

/-- R109: a reply with no request outstanding, or with another id, is logged as stray and changes
nothing. -/
def Obligations.StrayReplyOnlyLogged : Prop :=
  ∀ (id : Ident) (p : Bytes) (s : State), s.run = .running →
    (s.req = none ∨ ∃ r, s.req = some r ∧ r.id ≠ id) →
    exec (.oracleReply id p) s = .next { s with outs := s.outs ++ [.log (.stray id p)] }

/-- R110: during a WTX wait a step transmits exactly one frame if the budget elapses or the awaited
reply comes, and none otherwise; a step that enters the wait transmits exactly one frame, an S(WTX). -/
def Obligations.WaitTransmitsOncePerDeadline : Prop :=
  (∀ (s t : State) (e : Event) (es : List Event),
    Consistent s → s.run = .running → s.cardState = .handleWtx → s.inputs = e :: es →
    step s = .next t →
    txCount (newOutputs s t)
      = if e = .wtxElapsed ∨ t.cardState ≠ .handleWtx then 1 else 0)
  ∧ (∀ s t : State, s.cardState ≠ .handleWtx → step s = .next t → t.cardState = .handleWtx →
    txCount (newOutputs s t) = 1 ∧ Output.tx (wtxFrame s.cfg) .fresh ∈ newOutputs s t)

/-- R132 and R48: while a request is outstanding the retained I-block is not overwritten: a step keeps it,
or ends the request and clears both. -/
def Obligations.RetainedBlockNotOverwritten : Prop :=
  ∀ s t : State, Consistent s → s.req ≠ none → step s = .next t →
    (t.lastIblock = s.lastIblock ∧ t.req = s.req) ∨ (t.lastIblock = none ∧ t.req = none)

/-! ### Termination -/

/-- R113: each terminating event sets `run` to its reason and logs the exit, a PHY failure logging error
code 2 first; every other register keeps its value. -/
def Obligations.TerminationSetsReason : Prop :=
  ∀ s : State, s.run = .running →
    exec (.abort .button) s = .next
      { s with run := .terminated .abortButton, outs := s.outs ++ [.log (.exit .abortButton)] }
    ∧ exec (.abort .host) s = .next
      { s with run := .terminated .abortHost, outs := s.outs ++ [.log (.exit .abortHost)] }
    ∧ exec .noFieldTimeout s = .next
      { s with run := .terminated .noFieldTimeout, outs := s.outs ++ [.log (.exit .noFieldTimeout)] }
    ∧ exec .phyFail s = .next
      { s with
        run := .terminated .phyFail
        outs := s.outs ++ [.log (.error .phyEncodeFail), .log (.exit .phyFail)] }

/-- R113: only a terminating event ends a run: if a step ends it, the event taken was one, and it ends for
that event's reason. -/
def Obligations.OnlyTerminatingEventsEndRun : Prop :=
  ∀ (s t : State) (r : ExitReason), s.run = .running → step s = .next t → t.run = .terminated r →
    ∃ e es, s.inputs = e :: es ∧
      ((e = .abort .button ∧ r = .abortButton) ∨ (e = .abort .host ∧ r = .abortHost)
        ∨ (e = .noFieldTimeout ∧ r = .noFieldTimeout) ∨ (e = .phyFail ∧ r = .phyFail))

/-! ### Session creation -/

/-- R37: what reset leaves in the registers. The reset configuration itself is the model's choice (log
entry 1); the prepared frames are those of R96 for it. -/
def Obligations.ResetRegisterValues : Prop :=
  State.reset.run = .running ∧ State.reset.cardState = .noField ∧ State.reset.active = false
    ∧ State.reset.fileContext = .none ∧ State.reset.selFile = none ∧ State.reset.lastNs = 0
    ∧ sessionUid State.reset.cfg = some State.reset.uidOverride
    ∧ State.reset.lastIblock = none ∧ State.reset.req = none ∧ State.reset.nextId = 0
    ∧ State.reset.prep = prepare State.reset.cfg State.reset.uidOverride

/-- Reset is session creation under the reset configuration (the model's choice, log entry 1) without a
host UID, PHY setup and pre-encoding succeeding. -/
def Obligations.ResetIsSessionCreation : Prop :=
  initSession Cfg.initial none true true = some State.reset

/-- R126: a configuration that fails its check is refused; otherwise the registers are those of R37, with
the prepared frames and `Running` after PHY setup and pre-encoding succeed, the exit logged after PHY
setup fails, and error code 2 and the exit logged after pre-encoding fails. -/
def Obligations.SessionCreationOutcomes : Prop :=
  ∀ (c : Cfg) (h : Option Bytes),
    (cfgWf { c with hostUid := h } = false → ∀ phyOk encodeOk, initSession c h phyOk encodeOk = none)
    ∧ (cfgWf { c with hostUid := h } = true → ∃ u : Uid, uidBytes u = h.getD c.defaultUid ∧
      let created (run : RunStatus) (prep : Prep) (outs : List Output) : State :=
        { cfg := { c with hostUid := h }, run := run, cardState := .noField, active := false,
          fileContext := .none, selFile := none, lastNs := 0, uidOverride := u, lastIblock := none,
          req := none, nextId := 0, prep := prep, inputs := [], outs := outs }
      initSession c h true true
        = some (created .running (prepare { c with hostUid := h } u) [])
      ∧ (∀ encodeOk, ∃ prep, initSession c h false encodeOk
        = some (created (.terminated .phySetupFail) prep [.log (.exit .phySetupFail)]))
      ∧ initSession c h true false
        = some (created (.terminated .phyFail) (prepare { c with hostUid := h } u)
          [.log (.error .phyEncodeFail), .log (.exit .phyFail)]))

/-- R95, ruling I5 of 93_implementation_defined.md, and R126: the check admits exactly the configurations
whose host UID, default UID and ATQB application data are four bytes, whose files have ids of two bytes, no
two the same, and at most three records, and whose table has a file `3F 04`. A session is created under each
of these, and under no other. -/
def Obligations.IllFormedConfigurationRefused : Prop :=
  ∀ (c : Cfg) (h : Option Bytes),
    (cfgWf { c with hostUid := h } = true ↔
      c.defaultUid.length = 4 ∧ (∀ u, h = some u → u.length = 4) ∧ c.atqbAppData.length = 4
        ∧ (∀ e ∈ c.fileTable, e.fid.length = 2 ∧ e.records.length ≤ 3)
        ∧ (∀ (j k : Nat) (e e' : FileEntry),
          c.fileTable[j]? = some e → c.fileTable[k]? = some e' → e.fid = e'.fid → j = k)
        ∧ ∃ e ∈ c.fileTable, e.fid = [0x3F, 0x04])
    ∧ (∀ phyOk encodeOk, cfgWf { c with hostUid := h } = true →
      ∃ s, initSession c h phyOk encodeOk = some s)
    ∧ (∀ phyOk encodeOk, cfgWf { c with hostUid := h } = false →
      initSession c h phyOk encodeOk = none)

/-! ### Invariants -/

/-- The invariant of a session holds at reset. The reset configuration is the model's choice (log entry 1),
and item 4 of R36, a part of the invariant, is read without `S.run`, which is the model's reading (log entry
7). -/
def Obligations.ResetMeetsSessionInvariant : Prop := SessionInv State.reset

/-- The invariant holds of every session as created, whatever PHY setup and pre-encoding answer. Item 4 of
R36, a part of the invariant, is read without `S.run`, which is the model's reading (log entry 7). -/
def Obligations.CreatedSessionMeetsInvariant : Prop :=
  ∀ (c : Cfg) (h : Option Bytes) (phyOk encodeOk : Bool) (s : State),
    initSession c h phyOk encodeOk = some s → SessionInv s

/-- R36: every step keeps the invariants of the registers, from every state that has them. Item 4 is read
without `S.run`, which is the model's reading (log entry 7). -/
def Obligations.StepKeepsConsistent : Prop :=
  ∀ s t : State, Consistent s → step s = .next t → Consistent t

/-- Every step keeps the whole invariant of a session: R36, the registers fixed at creation (R25, R29,
R33), and the match of request and retained I-block (R27, R28). Item 4 of R36 is read without `S.run`, which
is the model's reading (log entry 7). -/
def Obligations.StepKeepsSessionInvariant : Prop :=
  ∀ s t : State, SessionInv s → step s = .next t → SessionInv t

/-- R29, R25, R33: no instruction writes the configuration, the identifier or the prepared frames. -/
def Obligations.SessionConstantsNeverWritten : Prop :=
  ∀ (i : Instr) (s t : State), exec i s = .next t →
    t.cfg = s.cfg ∧ t.uidOverride = s.uidOverride ∧ t.prep = s.prep

/-- R43, R111 and R120: from every state a session can be in, every step completes: no event stops the
machine with a fault or a refusal. -/
def Obligations.SessionStepAlwaysCompletes : Prop :=
  ∀ s : State, SessionInv s → ∃ t, step s = .next t

/-- R79: every frame a step of a session transmits ends in the CRC of the bytes before it. -/
def Obligations.TransmittedFramesCarryCrc : Prop :=
  ∀ s t : State, SessionInv s → step s = .next t →
    ∀ o ∈ newOutputs s t, txCrcOk o = true

/-- R50: what a step sends from a cached buffer is the frame prepared under that name. -/
def Obligations.CachedFramesArePrepared : Prop :=
  ∀ s t : State, step s = .next t → ∀ o ∈ newOutputs s t, cachedOk s.prep o = true

/-- R84: a session never logs the unknown-PCB error. -/
def Obligations.UnknownPcbNeverLogged : Prop :=
  ∀ s t : State, SessionInv s → step s = .next t →
    ∀ f, Output.log (.error (.unknownPcb f)) ∉ newOutputs s t

/-- R86, R125: no step returns the machine to `NoField`, and only a field detection leaves it. -/
def Obligations.NoFieldLeftOnlyByField : Prop :=
  ∀ s t : State, step s = .next t →
    (s.cardState ≠ .noField → t.cardState ≠ .noField)
    ∧ (s.cardState = .noField → t.cardState ≠ .noField →
      ∃ es, s.inputs = .fieldOn :: es)

/-- R21: `active` is set only by a SELECT of a known file and cleared only by a RESET. -/
def Obligations.ActiveHasTwoWriters : Prop :=
  ∀ s t : State, step s = .next t →
    (s.active = false → t.active = true →
      ∃ f id es, s.inputs = .rx f :: es ∧ patSelect s.cfg f = true ∧ fid? f = some id
        ∧ (findFile s.cfg id).isSome = true)
    ∧ (s.active = true → t.active = false → ∃ f es, s.inputs = .rx f :: es ∧ patReset f = true)

/-- R119: nothing reads the output stream back: with other outputs before it a step does the same and
appends the same. -/
def Obligations.OutputsNeverReadBack : Prop :=
  ∀ (i : Instr) (s t : State) (o : List Output), exec i { s with outs := [] } = .next t →
    exec i { s with outs := o } = .next { t with outs := o ++ t.outs }

/-- R24: no rule reads `last_ns`: with another value in it a step does the same, but for that register
where it is not written. -/
def Obligations.LastNsNeverRead : Prop :=
  ∀ (i : Instr) (s t : State) (n : Bit), exec i s = .next t →
    exec i { s with lastNs := n } = .next t
      ∨ (t.lastNs = s.lastNs ∧ exec i { s with lastNs := n } = .next { t with lastNs := n })
end

