-- ==== Sys2Proof/Laws/Codec.lean ====
section
/-! SUPPORT. What the codec's functions answer (40_frame_codec.md), one lemma per function. -/

namespace Sys2Proof.Machine

theorem crcFrame_length (d : Bytes) : (crcFrame d).length = d.length + 2 := by
  simp [crcFrame, crcBytes]

theorem crcFrame_valid (d : Bytes) : crcValid (crcFrame d) = true := by
  simp [crcValid, crcFrame, crcBytes]

/-- R76 for an entry without its CRC. -/
theorem crcStep_raw (p : Bytes) (b : Bool) : crcStep ⟨p, b, false⟩ = ⟨crcFrame p, b, true⟩ := rfl

/-- R76 for an entry that has its CRC. -/
theorem crcStep_done (e : ResponseEntry) (h : e.crcDone = true) : crcStep e = e := by
  simp [crcStep, h]

/-- After the CRC step the flag is set. -/
theorem crcStep_crcDone (e : ResponseEntry) : (crcStep e).crcDone = true := by
  unfold crcStep; split <;> simp_all

/-- The CRC step leaves the other flag alone. -/
@[simp] theorem crcStep_pcbDone (e : ResponseEntry) : (crcStep e).pcbDone = e.pcbDone := by
  unfold crcStep; split <;> rfl

/-- R71, R72 for an I-block: the PCB of the response is the inbound PCB. -/
theorem pcbPrefix_iblock (f : Bytes) (h : isIBlock f = true) :
    pcbPrefix (pcbClass f) = some (byteAt f 0) := by
  simp only [isIBlock, Bool.and_eq_true, decide_eq_true_eq, Bool.or_eq_true, beq_iff_eq] at h
  have h0 : f.length ≠ 0 := by omega
  obtain ⟨-, h2 | h2⟩ := h <;> simp [pcbClass, pcbPrefix, h0, h2]

/-- R75 of a raw payload answering an I-block. -/
theorem pcbStep_iblock (p f : Bytes) (h : isIBlock f = true) :
    pcbStep (rawEntry p) f = (⟨byteAt f 0 :: p, true, false⟩, []) := by
  simp [pcbStep, rawEntry, pcbPrefix_iblock f h]

/-- R75: an unknown PCB changes nothing and logs error code 5. -/
theorem pcbStep_unknown (e : ResponseEntry) (f : Bytes) (he : e.pcbDone = false)
    (h : pcbPrefix (pcbClass f) = none) :
    pcbStep e f = (e, [.log (.error (.unknownPcb f))]) := by
  simp [pcbStep, he, h]

/-- R80: the ATQB ends in the CRC of the bytes before it. -/
theorem atqbFrame_valid (c : Cfg) (u : Uid) : crcValid (atqbFrame c u) = true :=
  crcFrame_valid _

/-- R32: the OK frame carries its CRC already. -/
theorem entryOk_valid : crcValid entryOk.payload = true := by decide

@[simp] theorem prepare_ok (c : Cfg) (u : Uid) : (prepare c u).ok = entryOk.payload := rfl
@[simp] theorem prepare_atqb (c : Cfg) (u : Uid) : (prepare c u).atqb = atqbFrame c u := rfl

end Sys2Proof.Machine
end

