-- ==== Sys2Proof/Laws/Decode.lean ====
section
/-! SUPPORT. The fields of an I-block frame, read and rebuilt, and what a class says of a frame. -/

namespace Sys2Proof.Machine

theorem iFrame_length (ns : Bit) (a : Bytes) (c0 c1 : Byte) :
    (iFrame ns a c0 c1).length = a.length + 3 := by simp [iFrame]

@[simp] theorem iFrame_byteAt_zero (ns : Bit) (a : Bytes) (c0 c1 : Byte) :
    byteAt (iFrame ns a c0 c1) 0 = pcbOf ns := rfl

theorem pcbOf_cases (ns : Bit) : pcbOf ns = 0x02 ∨ pcbOf ns = 0x03 := by
  revert ns; decide

@[simp] theorem nsOf_pcbOf (ns : Bit) : (pcbOf ns).setWidth 1 = ns := by
  revert ns; decide

@[simp] theorem iFrame_nsOf (ns : Bit) (a : Bytes) (c0 c1 : Byte) :
    nsOf (iFrame ns a c0 c1) = ns := nsOf_pcbOf ns

@[simp] theorem iFrame_isIBlock (ns : Bit) (a : Bytes) (c0 c1 : Byte) :
    isIBlock (iFrame ns a c0 c1) = true := by
  simpa [isIBlock, iFrame_length] using pcbOf_cases ns

@[simp] theorem iFrame_apdu (ns : Bit) (a : Bytes) (c0 c1 : Byte) :
    apdu (iFrame ns a c0 c1) = a := by
  simp [apdu, slice, iFrame]

theorem iFrame_ins (ns : Bit) (cla ins : Byte) (body : Bytes) (c0 c1 : Byte) :
    ins? (iFrame ns (cla :: ins :: body) c0 c1) = some ins := by
  simp [ins?, iFrame_length]; rfl

theorem iFrame_ins_short (ns : Bit) (a : Bytes) (c0 c1 : Byte) (h : a.length < 2) :
    ins? (iFrame ns a c0 c1) = none := by
  simp [ins?, iFrame_length]; omega

theorem iFrame_fid (ns : Bit) (cla ins p1 p2 lc d0 d1 : Byte) (tail : Bytes) (c0 c1 : Byte) :
    fid? (iFrame ns (cla :: ins :: p1 :: p2 :: lc :: d0 :: d1 :: tail) c0 c1) = some (d0, d1) := by
  simp [fid?, iFrame_length]; exact ⟨rfl, rfl⟩

theorem iFrame_fid_short (ns : Bit) (cla ins : Byte) (body : Bytes) (c0 c1 : Byte)
    (h : body.length < 5) : fid? (iFrame ns (cla :: ins :: body) c0 c1) = none := by
  simp [fid?, iFrame_length]; omega

/-- R53: the PCB of an I-block is rebuilt from its N(S). -/
theorem pcbOf_nsOf (f : Bytes) (h : isIBlock f = true) : pcbOf (nsOf f) = byteAt f 0 := by
  simp only [isIBlock, Bool.and_eq_true, decide_eq_true_eq, Bool.or_eq_true, beq_iff_eq] at h
  obtain ⟨-, h | h⟩ := h <;> rw [nsOf, h] <;> decide

/-- A list of at least three elements is its first, what lies between, and its last two. -/
theorem split_ends (f : Bytes) (h : 3 ≤ f.length) :
    f = byteAt f 0 :: (apdu f ++ [crcByte0 f, crcByte1 f]) := by
  obtain ⟨x, g, rfl⟩ : ∃ x g, f = x :: g := by
    cases f with
    | nil => simp at h
    | cons x g => exact ⟨x, g, rfl⟩
  have hg : 2 ≤ g.length := by simpa using h
  have htail : g.drop (g.length - 2) = [g.getD (g.length - 2) 0, g.getD (g.length - 1) 0] := by
    apply List.ext_getElem
    · simp; omega
    · intro i h1 h2
      simp only [List.length_drop] at h1
      have : i = 0 ∨ i = 1 := by omega
      rcases this with rfl | rfl
      · simp [List.getElem?_eq_getElem (show g.length - 2 < g.length by omega)]
      · simp [List.getElem?_eq_getElem (show g.length - 1 < g.length by omega),
          show g.length - 2 + 1 = g.length - 1 by omega]
  have h0 : crcByte0 (x :: g) = g.getD (g.length - 2) 0 := by
    simp [crcByte0, byteAt, show g.length + 1 - 2 = (g.length - 2) + 1 by omega]
  have h1 : crcByte1 (x :: g) = g.getD (g.length - 1) 0 := by
    simp [crcByte1, byteAt]
    obtain ⟨m, hm⟩ : ∃ m, g.length = m + 1 := ⟨g.length - 1, by omega⟩
    simp [hm]
  have ha : apdu (x :: g) = g.take (g.length - 2) := by
    simp [apdu, slice, show g.length + 1 - 3 = g.length - 2 by omega]
  rw [h0, h1, ha, ← htail, List.take_append_drop]
  rfl

/-- Rebuilding an I-block from its fields gives it back. -/
theorem iFrame_rebuild (f : Bytes) (h : isIBlock f = true) :
    iFrame (nsOf f) (apdu f) (crcByte0 f) (crcByte1 f) = f := by
  have h3 : 3 ≤ f.length := by
    simp only [isIBlock, Bool.and_eq_true, decide_eq_true_eq] at h; exact h.1
  rw [iFrame, pcbOf_nsOf f h, ← split_ends f h3]

/-- The APDU of a frame of at least five bytes is CLA, INS and the body. -/
theorem apdu_eq (f : Bytes) (h : 5 ≤ f.length) :
    apdu f = byteAt f 1 :: byteAt f 2 :: bodyOf f := by
  match f, h with
  | a :: b :: c :: d :: e :: g, _ => simp [apdu, bodyOf, slice, byteAt]

theorem ins_some {f : Bytes} {x : Byte} (h : ins? f = some x) :
    5 ≤ f.length ∧ byteAt f 2 = x := by
  simp only [ins?] at h
  split at h
  · exact ⟨by assumption, by simpa using h⟩
  · cases h

end Sys2Proof.Machine

namespace Sys2Proof

open Sys2Proof.Machine

/-- The pattern of a frame's class holds of the frame (R64). -/
theorem rowPattern_of_classify {c : Cfg} {f : Bytes} {r : FrameClass} (h : classify c f = r)
    (hr : r ≠ .unknown) : rowPattern c r f = true := by
  unfold classify at h
  cases hf : rows.find? (fun r => rowPattern c r f) with
  | none => rw [hf] at h; exact absurd h.symm hr
  | some r' =>
    rw [hf] at h
    have := List.find?_some hf
    rwa [show r' = r from h] at this

/-- The four I-block patterns hold only of I-blocks (R64). -/
theorem isIBlock_of_rowPattern {c : Cfg} {f : Bytes} {r : FrameClass}
    (hr : r = .select ∨ r = .readRecord ∨ r = .getData ∨ r = .iblock)
    (h : rowPattern c r f = true) : isIBlock f = true := by
  rcases hr with rfl | rfl | rfl | rfl <;>
    simp only [rowPattern, patSelect, patRead, patGetData, patIblock, Bool.and_eq_true] at h
  · exact h.1
  · exact h.1
  · exact h.1.1
  · exact h

end Sys2Proof
end

