-- ==== Sys2Proof/Laws/State.lean ====
section
/-! SUPPORT. One lemma per field per register update, so that no later proof unfolds a record update. -/

namespace Sys2Proof.Machine

/-! `emit` -/

@[simp] theorem emit_cfg (s : State) (o : Output) : (s.emit o).cfg = s.cfg := rfl
@[simp] theorem emit_run (s : State) (o : Output) : (s.emit o).run = s.run := rfl
@[simp] theorem emit_cardState (s : State) (o : Output) : (s.emit o).cardState = s.cardState := rfl
@[simp] theorem emit_active (s : State) (o : Output) : (s.emit o).active = s.active := rfl
@[simp] theorem emit_fileContext (s : State) (o : Output) : (s.emit o).fileContext = s.fileContext := rfl
@[simp] theorem emit_selFile (s : State) (o : Output) : (s.emit o).selFile = s.selFile := rfl
@[simp] theorem emit_lastNs (s : State) (o : Output) : (s.emit o).lastNs = s.lastNs := rfl
@[simp] theorem emit_uidOverride (s : State) (o : Output) : (s.emit o).uidOverride = s.uidOverride := rfl
@[simp] theorem emit_lastIblock (s : State) (o : Output) : (s.emit o).lastIblock = s.lastIblock := rfl
@[simp] theorem emit_req (s : State) (o : Output) : (s.emit o).req = s.req := rfl
@[simp] theorem emit_nextId (s : State) (o : Output) : (s.emit o).nextId = s.nextId := rfl
@[simp] theorem emit_prep (s : State) (o : Output) : (s.emit o).prep = s.prep := rfl
@[simp] theorem emit_inputs (s : State) (o : Output) : (s.emit o).inputs = s.inputs := rfl
@[simp] theorem emit_outs (s : State) (o : Output) : (s.emit o).outs = s.outs ++ [o] := rfl

/-! `emitAll` -/

@[simp] theorem emitAll_cfg (s : State) (os : List Output) : (s.emitAll os).cfg = s.cfg := rfl
@[simp] theorem emitAll_run (s : State) (os : List Output) : (s.emitAll os).run = s.run := rfl
@[simp] theorem emitAll_cardState (s : State) (os : List Output) : (s.emitAll os).cardState = s.cardState := rfl
@[simp] theorem emitAll_active (s : State) (os : List Output) : (s.emitAll os).active = s.active := rfl
@[simp] theorem emitAll_fileContext (s : State) (os : List Output) : (s.emitAll os).fileContext = s.fileContext := rfl
@[simp] theorem emitAll_selFile (s : State) (os : List Output) : (s.emitAll os).selFile = s.selFile := rfl
@[simp] theorem emitAll_lastNs (s : State) (os : List Output) : (s.emitAll os).lastNs = s.lastNs := rfl
@[simp] theorem emitAll_uidOverride (s : State) (os : List Output) : (s.emitAll os).uidOverride = s.uidOverride := rfl
@[simp] theorem emitAll_lastIblock (s : State) (os : List Output) : (s.emitAll os).lastIblock = s.lastIblock := rfl
@[simp] theorem emitAll_req (s : State) (os : List Output) : (s.emitAll os).req = s.req := rfl
@[simp] theorem emitAll_nextId (s : State) (os : List Output) : (s.emitAll os).nextId = s.nextId := rfl
@[simp] theorem emitAll_prep (s : State) (os : List Output) : (s.emitAll os).prep = s.prep := rfl
@[simp] theorem emitAll_inputs (s : State) (os : List Output) : (s.emitAll os).inputs = s.inputs := rfl
@[simp] theorem emitAll_outs (s : State) (os : List Output) : (s.emitAll os).outs = s.outs ++ os := rfl

/-! `enter` -/

@[simp] theorem enter_cfg (s : State) (v : CardState) : (s.enter v).cfg = s.cfg := rfl
@[simp] theorem enter_run (s : State) (v : CardState) : (s.enter v).run = s.run := rfl
@[simp] theorem enter_cardState (s : State) (v : CardState) : (s.enter v).cardState = v := rfl
@[simp] theorem enter_active (s : State) (v : CardState) : (s.enter v).active = s.active := rfl
@[simp] theorem enter_fileContext (s : State) (v : CardState) : (s.enter v).fileContext = s.fileContext := rfl
@[simp] theorem enter_selFile (s : State) (v : CardState) : (s.enter v).selFile = s.selFile := rfl
@[simp] theorem enter_lastNs (s : State) (v : CardState) : (s.enter v).lastNs = s.lastNs := rfl
@[simp] theorem enter_uidOverride (s : State) (v : CardState) : (s.enter v).uidOverride = s.uidOverride := rfl
@[simp] theorem enter_lastIblock (s : State) (v : CardState) : (s.enter v).lastIblock = s.lastIblock := rfl
@[simp] theorem enter_req (s : State) (v : CardState) : (s.enter v).req = s.req := rfl
@[simp] theorem enter_nextId (s : State) (v : CardState) : (s.enter v).nextId = s.nextId := rfl
@[simp] theorem enter_prep (s : State) (v : CardState) : (s.enter v).prep = s.prep := rfl
@[simp] theorem enter_inputs (s : State) (v : CardState) : (s.enter v).inputs = s.inputs := rfl
@[simp] theorem enter_outs (s : State) (v : CardState) : (s.enter v).outs = s.outs := rfl

/-! `setRun` -/

@[simp] theorem setRun_cfg (s : State) (v : RunStatus) : (s.setRun v).cfg = s.cfg := rfl
@[simp] theorem setRun_run (s : State) (v : RunStatus) : (s.setRun v).run = v := rfl
@[simp] theorem setRun_cardState (s : State) (v : RunStatus) : (s.setRun v).cardState = s.cardState := rfl
@[simp] theorem setRun_active (s : State) (v : RunStatus) : (s.setRun v).active = s.active := rfl
@[simp] theorem setRun_fileContext (s : State) (v : RunStatus) : (s.setRun v).fileContext = s.fileContext := rfl
@[simp] theorem setRun_selFile (s : State) (v : RunStatus) : (s.setRun v).selFile = s.selFile := rfl
@[simp] theorem setRun_lastNs (s : State) (v : RunStatus) : (s.setRun v).lastNs = s.lastNs := rfl
@[simp] theorem setRun_uidOverride (s : State) (v : RunStatus) : (s.setRun v).uidOverride = s.uidOverride := rfl
@[simp] theorem setRun_lastIblock (s : State) (v : RunStatus) : (s.setRun v).lastIblock = s.lastIblock := rfl
@[simp] theorem setRun_req (s : State) (v : RunStatus) : (s.setRun v).req = s.req := rfl
@[simp] theorem setRun_nextId (s : State) (v : RunStatus) : (s.setRun v).nextId = s.nextId := rfl
@[simp] theorem setRun_prep (s : State) (v : RunStatus) : (s.setRun v).prep = s.prep := rfl
@[simp] theorem setRun_inputs (s : State) (v : RunStatus) : (s.setRun v).inputs = s.inputs := rfl
@[simp] theorem setRun_outs (s : State) (v : RunStatus) : (s.setRun v).outs = s.outs := rfl

/-! `setActive` -/

@[simp] theorem setActive_cfg (s : State) (v : Bool) : (s.setActive v).cfg = s.cfg := rfl
@[simp] theorem setActive_run (s : State) (v : Bool) : (s.setActive v).run = s.run := rfl
@[simp] theorem setActive_cardState (s : State) (v : Bool) : (s.setActive v).cardState = s.cardState := rfl
@[simp] theorem setActive_active (s : State) (v : Bool) : (s.setActive v).active = v := rfl
@[simp] theorem setActive_fileContext (s : State) (v : Bool) : (s.setActive v).fileContext = s.fileContext := rfl
@[simp] theorem setActive_selFile (s : State) (v : Bool) : (s.setActive v).selFile = s.selFile := rfl
@[simp] theorem setActive_lastNs (s : State) (v : Bool) : (s.setActive v).lastNs = s.lastNs := rfl
@[simp] theorem setActive_uidOverride (s : State) (v : Bool) : (s.setActive v).uidOverride = s.uidOverride := rfl
@[simp] theorem setActive_lastIblock (s : State) (v : Bool) : (s.setActive v).lastIblock = s.lastIblock := rfl
@[simp] theorem setActive_req (s : State) (v : Bool) : (s.setActive v).req = s.req := rfl
@[simp] theorem setActive_nextId (s : State) (v : Bool) : (s.setActive v).nextId = s.nextId := rfl
@[simp] theorem setActive_prep (s : State) (v : Bool) : (s.setActive v).prep = s.prep := rfl
@[simp] theorem setActive_inputs (s : State) (v : Bool) : (s.setActive v).inputs = s.inputs := rfl
@[simp] theorem setActive_outs (s : State) (v : Bool) : (s.setActive v).outs = s.outs := rfl

/-! `setFileContext` -/

@[simp] theorem setFileContext_cfg (s : State) (v : FileContext) : (s.setFileContext v).cfg = s.cfg := rfl
@[simp] theorem setFileContext_run (s : State) (v : FileContext) : (s.setFileContext v).run = s.run := rfl
@[simp] theorem setFileContext_cardState (s : State) (v : FileContext) : (s.setFileContext v).cardState = s.cardState := rfl
@[simp] theorem setFileContext_active (s : State) (v : FileContext) : (s.setFileContext v).active = s.active := rfl
@[simp] theorem setFileContext_fileContext (s : State) (v : FileContext) : (s.setFileContext v).fileContext = v := rfl
@[simp] theorem setFileContext_selFile (s : State) (v : FileContext) : (s.setFileContext v).selFile = s.selFile := rfl
@[simp] theorem setFileContext_lastNs (s : State) (v : FileContext) : (s.setFileContext v).lastNs = s.lastNs := rfl
@[simp] theorem setFileContext_uidOverride (s : State) (v : FileContext) : (s.setFileContext v).uidOverride = s.uidOverride := rfl
@[simp] theorem setFileContext_lastIblock (s : State) (v : FileContext) : (s.setFileContext v).lastIblock = s.lastIblock := rfl
@[simp] theorem setFileContext_req (s : State) (v : FileContext) : (s.setFileContext v).req = s.req := rfl
@[simp] theorem setFileContext_nextId (s : State) (v : FileContext) : (s.setFileContext v).nextId = s.nextId := rfl
@[simp] theorem setFileContext_prep (s : State) (v : FileContext) : (s.setFileContext v).prep = s.prep := rfl
@[simp] theorem setFileContext_inputs (s : State) (v : FileContext) : (s.setFileContext v).inputs = s.inputs := rfl
@[simp] theorem setFileContext_outs (s : State) (v : FileContext) : (s.setFileContext v).outs = s.outs := rfl

/-! `setSelFile` -/

@[simp] theorem setSelFile_cfg (s : State) (v : Option Nat) : (s.setSelFile v).cfg = s.cfg := rfl
@[simp] theorem setSelFile_run (s : State) (v : Option Nat) : (s.setSelFile v).run = s.run := rfl
@[simp] theorem setSelFile_cardState (s : State) (v : Option Nat) : (s.setSelFile v).cardState = s.cardState := rfl
@[simp] theorem setSelFile_active (s : State) (v : Option Nat) : (s.setSelFile v).active = s.active := rfl
@[simp] theorem setSelFile_fileContext (s : State) (v : Option Nat) : (s.setSelFile v).fileContext = s.fileContext := rfl
@[simp] theorem setSelFile_selFile (s : State) (v : Option Nat) : (s.setSelFile v).selFile = v := rfl
@[simp] theorem setSelFile_lastNs (s : State) (v : Option Nat) : (s.setSelFile v).lastNs = s.lastNs := rfl
@[simp] theorem setSelFile_uidOverride (s : State) (v : Option Nat) : (s.setSelFile v).uidOverride = s.uidOverride := rfl
@[simp] theorem setSelFile_lastIblock (s : State) (v : Option Nat) : (s.setSelFile v).lastIblock = s.lastIblock := rfl
@[simp] theorem setSelFile_req (s : State) (v : Option Nat) : (s.setSelFile v).req = s.req := rfl
@[simp] theorem setSelFile_nextId (s : State) (v : Option Nat) : (s.setSelFile v).nextId = s.nextId := rfl
@[simp] theorem setSelFile_prep (s : State) (v : Option Nat) : (s.setSelFile v).prep = s.prep := rfl
@[simp] theorem setSelFile_inputs (s : State) (v : Option Nat) : (s.setSelFile v).inputs = s.inputs := rfl
@[simp] theorem setSelFile_outs (s : State) (v : Option Nat) : (s.setSelFile v).outs = s.outs := rfl

/-! `setLastNs` -/

@[simp] theorem setLastNs_cfg (s : State) (v : Bit) : (s.setLastNs v).cfg = s.cfg := rfl
@[simp] theorem setLastNs_run (s : State) (v : Bit) : (s.setLastNs v).run = s.run := rfl
@[simp] theorem setLastNs_cardState (s : State) (v : Bit) : (s.setLastNs v).cardState = s.cardState := rfl
@[simp] theorem setLastNs_active (s : State) (v : Bit) : (s.setLastNs v).active = s.active := rfl
@[simp] theorem setLastNs_fileContext (s : State) (v : Bit) : (s.setLastNs v).fileContext = s.fileContext := rfl
@[simp] theorem setLastNs_selFile (s : State) (v : Bit) : (s.setLastNs v).selFile = s.selFile := rfl
@[simp] theorem setLastNs_lastNs (s : State) (v : Bit) : (s.setLastNs v).lastNs = v := rfl
@[simp] theorem setLastNs_uidOverride (s : State) (v : Bit) : (s.setLastNs v).uidOverride = s.uidOverride := rfl
@[simp] theorem setLastNs_lastIblock (s : State) (v : Bit) : (s.setLastNs v).lastIblock = s.lastIblock := rfl
@[simp] theorem setLastNs_req (s : State) (v : Bit) : (s.setLastNs v).req = s.req := rfl
@[simp] theorem setLastNs_nextId (s : State) (v : Bit) : (s.setLastNs v).nextId = s.nextId := rfl
@[simp] theorem setLastNs_prep (s : State) (v : Bit) : (s.setLastNs v).prep = s.prep := rfl
@[simp] theorem setLastNs_inputs (s : State) (v : Bit) : (s.setLastNs v).inputs = s.inputs := rfl
@[simp] theorem setLastNs_outs (s : State) (v : Bit) : (s.setLastNs v).outs = s.outs := rfl

/-! `setLastIblock` -/

@[simp] theorem setLastIblock_cfg (s : State) (v : Option Bytes) : (s.setLastIblock v).cfg = s.cfg := rfl
@[simp] theorem setLastIblock_run (s : State) (v : Option Bytes) : (s.setLastIblock v).run = s.run := rfl
@[simp] theorem setLastIblock_cardState (s : State) (v : Option Bytes) : (s.setLastIblock v).cardState = s.cardState := rfl
@[simp] theorem setLastIblock_active (s : State) (v : Option Bytes) : (s.setLastIblock v).active = s.active := rfl
@[simp] theorem setLastIblock_fileContext (s : State) (v : Option Bytes) : (s.setLastIblock v).fileContext = s.fileContext := rfl
@[simp] theorem setLastIblock_selFile (s : State) (v : Option Bytes) : (s.setLastIblock v).selFile = s.selFile := rfl
@[simp] theorem setLastIblock_lastNs (s : State) (v : Option Bytes) : (s.setLastIblock v).lastNs = s.lastNs := rfl
@[simp] theorem setLastIblock_uidOverride (s : State) (v : Option Bytes) : (s.setLastIblock v).uidOverride = s.uidOverride := rfl
@[simp] theorem setLastIblock_lastIblock (s : State) (v : Option Bytes) : (s.setLastIblock v).lastIblock = v := rfl
@[simp] theorem setLastIblock_req (s : State) (v : Option Bytes) : (s.setLastIblock v).req = s.req := rfl
@[simp] theorem setLastIblock_nextId (s : State) (v : Option Bytes) : (s.setLastIblock v).nextId = s.nextId := rfl
@[simp] theorem setLastIblock_prep (s : State) (v : Option Bytes) : (s.setLastIblock v).prep = s.prep := rfl
@[simp] theorem setLastIblock_inputs (s : State) (v : Option Bytes) : (s.setLastIblock v).inputs = s.inputs := rfl
@[simp] theorem setLastIblock_outs (s : State) (v : Option Bytes) : (s.setLastIblock v).outs = s.outs := rfl

/-! `setReq` -/

@[simp] theorem setReq_cfg (s : State) (v : Option Request) : (s.setReq v).cfg = s.cfg := rfl
@[simp] theorem setReq_run (s : State) (v : Option Request) : (s.setReq v).run = s.run := rfl
@[simp] theorem setReq_cardState (s : State) (v : Option Request) : (s.setReq v).cardState = s.cardState := rfl
@[simp] theorem setReq_active (s : State) (v : Option Request) : (s.setReq v).active = s.active := rfl
@[simp] theorem setReq_fileContext (s : State) (v : Option Request) : (s.setReq v).fileContext = s.fileContext := rfl
@[simp] theorem setReq_selFile (s : State) (v : Option Request) : (s.setReq v).selFile = s.selFile := rfl
@[simp] theorem setReq_lastNs (s : State) (v : Option Request) : (s.setReq v).lastNs = s.lastNs := rfl
@[simp] theorem setReq_uidOverride (s : State) (v : Option Request) : (s.setReq v).uidOverride = s.uidOverride := rfl
@[simp] theorem setReq_lastIblock (s : State) (v : Option Request) : (s.setReq v).lastIblock = s.lastIblock := rfl
@[simp] theorem setReq_req (s : State) (v : Option Request) : (s.setReq v).req = v := rfl
@[simp] theorem setReq_nextId (s : State) (v : Option Request) : (s.setReq v).nextId = s.nextId := rfl
@[simp] theorem setReq_prep (s : State) (v : Option Request) : (s.setReq v).prep = s.prep := rfl
@[simp] theorem setReq_inputs (s : State) (v : Option Request) : (s.setReq v).inputs = s.inputs := rfl
@[simp] theorem setReq_outs (s : State) (v : Option Request) : (s.setReq v).outs = s.outs := rfl

/-! `setNextId` -/

@[simp] theorem setNextId_cfg (s : State) (v : Ident) : (s.setNextId v).cfg = s.cfg := rfl
@[simp] theorem setNextId_run (s : State) (v : Ident) : (s.setNextId v).run = s.run := rfl
@[simp] theorem setNextId_cardState (s : State) (v : Ident) : (s.setNextId v).cardState = s.cardState := rfl
@[simp] theorem setNextId_active (s : State) (v : Ident) : (s.setNextId v).active = s.active := rfl
@[simp] theorem setNextId_fileContext (s : State) (v : Ident) : (s.setNextId v).fileContext = s.fileContext := rfl
@[simp] theorem setNextId_selFile (s : State) (v : Ident) : (s.setNextId v).selFile = s.selFile := rfl
@[simp] theorem setNextId_lastNs (s : State) (v : Ident) : (s.setNextId v).lastNs = s.lastNs := rfl
@[simp] theorem setNextId_uidOverride (s : State) (v : Ident) : (s.setNextId v).uidOverride = s.uidOverride := rfl
@[simp] theorem setNextId_lastIblock (s : State) (v : Ident) : (s.setNextId v).lastIblock = s.lastIblock := rfl
@[simp] theorem setNextId_req (s : State) (v : Ident) : (s.setNextId v).req = s.req := rfl
@[simp] theorem setNextId_nextId (s : State) (v : Ident) : (s.setNextId v).nextId = v := rfl
@[simp] theorem setNextId_prep (s : State) (v : Ident) : (s.setNextId v).prep = s.prep := rfl
@[simp] theorem setNextId_inputs (s : State) (v : Ident) : (s.setNextId v).inputs = s.inputs := rfl
@[simp] theorem setNextId_outs (s : State) (v : Ident) : (s.setNextId v).outs = s.outs := rfl

/-! `deliver` -/

@[simp] theorem deliver_cfg (s : State) (es : List Event) : (s.deliver es).cfg = s.cfg := rfl
@[simp] theorem deliver_run (s : State) (es : List Event) : (s.deliver es).run = s.run := rfl
@[simp] theorem deliver_cardState (s : State) (es : List Event) : (s.deliver es).cardState = s.cardState := rfl
@[simp] theorem deliver_active (s : State) (es : List Event) : (s.deliver es).active = s.active := rfl
@[simp] theorem deliver_fileContext (s : State) (es : List Event) : (s.deliver es).fileContext = s.fileContext := rfl
@[simp] theorem deliver_selFile (s : State) (es : List Event) : (s.deliver es).selFile = s.selFile := rfl
@[simp] theorem deliver_lastNs (s : State) (es : List Event) : (s.deliver es).lastNs = s.lastNs := rfl
@[simp] theorem deliver_uidOverride (s : State) (es : List Event) : (s.deliver es).uidOverride = s.uidOverride := rfl
@[simp] theorem deliver_lastIblock (s : State) (es : List Event) : (s.deliver es).lastIblock = s.lastIblock := rfl
@[simp] theorem deliver_req (s : State) (es : List Event) : (s.deliver es).req = s.req := rfl
@[simp] theorem deliver_nextId (s : State) (es : List Event) : (s.deliver es).nextId = s.nextId := rfl
@[simp] theorem deliver_prep (s : State) (es : List Event) : (s.deliver es).prep = s.prep := rfl
@[simp] theorem deliver_inputs (s : State) (es : List Event) : (s.deliver es).inputs = s.inputs ++ es := rfl
@[simp] theorem deliver_outs (s : State) (es : List Event) : (s.deliver es).outs = s.outs := rfl

/-! The named outputs, as `emit`. -/

@[simp] theorem log_eq_emit (s : State) (l : LogEntry) : s.log l = s.emit (.log l) := rfl
@[simp] theorem logError_eq_emit (s : State) (e : ErrorEntry) : s.logError e = s.emit (.log (.error e)) := rfl
@[simp] theorem txFresh_eq_emit (s : State) (b : Bytes) : s.txFresh b = s.emit (.tx b .fresh) := rfl
@[simp] theorem txCached_atqb (s : State) : s.txCached .atqb = s.emit (.tx s.prep.atqb (.cached .atqb)) := rfl
@[simp] theorem txCached_ok (s : State) : s.txCached .ok = s.emit (.tx s.prep.ok (.cached .ok)) := rfl

end Sys2Proof.Machine
end

