-- ==== Sys2Proof/Laws/Ops.lean ====
section
/-! SUPPORT. What the shared operations answer, so that a proof about an instruction cites them. -/

namespace Sys2Proof.Machine

/-- R82 for a per-exchange payload answering an I-block: one fresh transmission of inbound PCB, payload
and CRC, and the inbound N(S) in `last_ns`; nothing else. -/
theorem respond_iblock (s : State) (p f : Bytes) (h : isIBlock f = true) :
    s.respond (rawEntry p) f
      = { s with
          outs := s.outs ++ [.tx (crcFrame (byteAt f 0 :: p)) .fresh]
          lastNs := nsOf f } := by
  have hf : finalize (rawEntry p) f = (⟨crcFrame (byteAt f 0 :: p), true, true⟩, []) := by
    simp [finalize, pcbStep_iblock p f h, crcStep_raw]
  have h0 : byteAt (crcFrame (byteAt f 0 :: p)) 0 = byteAt f 0 := rfl
  have hne : crcFrame (byteAt f 0 :: p) ≠ [] := List.cons_ne_nil _ _
  have hb : byteAt f 0 = 0x02 ∨ byteAt f 0 = 0x03 := by
    simp only [isIBlock, Bool.and_eq_true, Bool.or_eq_true, beq_iff_eq] at h
    exact h.2
  unfold State.respond State.recordNs
  rw [hf]
  dsimp only
  rw [if_pos ⟨hne, h0 ▸ hb, rfl, rfl⟩, h0]
  simp [nsOf, State.setLastNs, State.emit, State.emitAll, State.txFresh]

/-- What `respond` can touch, whatever the entry and the frame: outputs are appended, the last of them a
transmission, and `last_ns` may change. -/
theorem respond_frame (s : State) (e : ResponseEntry) (f : Bytes) :
    ∃ n, s.respond e f = { s with
      outs := s.outs ++ ((finalize e f).2 ++ [.tx (finalize e f).1.payload .fresh])
      lastNs := n } := by
  unfold State.respond State.recordNs
  dsimp only
  split
  · exact ⟨_, by simp [State.setLastNs, State.emit, State.emitAll, State.txFresh]; rfl⟩
  · exact ⟨s.lastNs, by simp [State.emit, State.emitAll, State.txFresh]⟩

/-- R113: what ending the run does. -/
theorem terminate_eq (s : State) (r : ExitReason) :
    s.terminate r = { s with run := .terminated r, outs := s.outs ++ [.log (.exit r)] } := rfl

/-- Error code 2 and the exit it brings. -/
theorem phyFailure_eq (s : State) :
    s.phyFailure = { s with
      run := .terminated .phyFail
      outs := s.outs ++ [.log (.error .phyEncodeFail), .log (.exit .phyFail)] } := by
  simp [State.phyFailure, State.terminate, State.setRun, State.log, State.logError, State.emit]

/-- R85, first line: a running machine goes on. -/
theorem whenRunning_running {s : State} (h : s.run = .running) (k : State → Result) :
    whenRunning s k = k s := by simp [whenRunning, h]

/-- R85, first line: a terminated machine is left as it is. -/
theorem whenRunning_terminated {s : State} (h : s.run ≠ .running) (k : State → Result) :
    whenRunning s k = .next s := by simp [whenRunning, h]

/-- Inversion of the run check. -/
theorem whenRunning_next {s t : State} {k : State → Result} (h : whenRunning s k = .next t) :
    (s.run ≠ .running ∧ t = s) ∨ (s.run = .running ∧ k s = .next t) := by
  by_cases hr : s.run = .running
  · exact .inr ⟨hr, by rwa [whenRunning_running hr] at h⟩
  · rw [whenRunning_terminated hr] at h
    exact .inl ⟨hr, by injection h with h; exact h.symm⟩

end Sys2Proof.Machine
end

