-- ==== Sys2Proof/Laws/Rules.lean ====
section
/-! SUPPORT. What each rule of the priority table does, as one record update, and the ways the dispatch of
a received frame can answer a next state. -/

namespace Sys2Proof.Machine

theorem unrecognisedRule_eq (cls : FrameClass) (f : Bytes) (s : State) :
    unrecognisedRule cls f s
      = { s with outs := s.outs ++ [.log (.error (.unrecognized f cls s.cardState))] } := rfl

theorem waitRule_eq (cls : FrameClass) (f : Bytes) (s : State) :
    waitRule cls f s = { s with
      outs := s.outs ++
        if patWtxack f then [] else [.log (.error (.unrecognized f cls .handleWtx))] } := by
  unfold waitRule; split <;> simp [State.emit, State.logError, State.log]

theorem wupbRule_eq (s : State) :
    wupbRule s = { s with
      cardState := .idle
      outs := s.outs ++
        [.log (.trans [s.cardState, .selecting, .idle]), .tx s.prep.atqb (.cached .atqb)] } := by
  simp [wupbRule, State.enter, State.emit]

theorem reqbRule_eq (s : State) :
    reqbRule s = { s with
      cardState := .idle
      outs := s.outs ++
        [.log (.trans [.idle, .requesting, .idle]), .tx s.prep.atqb (.cached .atqb)] } := by
  simp [reqbRule, State.enter, State.emit]

theorem attribRule_eq (s : State) :
    attribRule s = { s with
      cardState := .halted
      outs := s.outs ++
        [.log (.trans [.idle, .halting, .halted]), .tx s.prep.ok (.cached .ok)] } := by
  simp [attribRule, State.enter, State.emit]

theorem resetRule_eq (s : State) :
    resetRule s = { s with
      cardState := .idle
      active := false
      fileContext := .none
      selFile := none
      outs := s.outs ++ [.log (.trans [s.cardState, .idle])] } := rfl

theorem selectHitRule_eq (id : Byte × Byte) (k : Nat) (e : FileEntry) (f : Bytes) (s : State)
    (h : isIBlock f = true) :
    selectHitRule id k e f s = { s with
      cardState := .idle
      active := true
      selFile := some k
      fileContext := .awaitingFirst
      lastNs := nsOf f
      outs := s.outs ++
        [.log (.trans [.idle, .selectFile (some id), .idle]),
         .tx (crcFrame (byteAt f 0 :: e.selectResp)) .fresh] } := by
  simp [selectHitRule, entrySel, respond_iblock _ _ _ h, State.enter, State.setActive,
    State.setSelFile, State.setFileContext, State.emit]

theorem selectMissRule_eq (id : Option (Byte × Byte)) (f : Bytes) (s : State)
    (h : isIBlock f = true) :
    selectMissRule id f s = { s with
      cardState := .idle
      selFile := none
      fileContext := .invalid
      lastNs := nsOf f
      outs := s.outs ++
        [.log (.trans [.idle, .selectFile id, .idle]),
         .tx (crcFrame (byteAt f 0 :: s.cfg.swFileNotFound)) .fresh] } := by
  simp [selectMissRule, entryFnf, respond_iblock _ _ _ h, State.enter, State.setSelFile,
    State.setFileContext, State.emit]

theorem readRecordAnswer_eq (p : Bytes) (ctx : FileContext) (f : Bytes) (s : State)
    (h : isIBlock f = true) :
    readRecordAnswer (rawEntry p) ctx f s = { s with
      cardState := .idle
      fileContext := ctx
      lastNs := nsOf f
      outs := s.outs ++
        [.log (.trans [.idle, .readRecord, .idle]), .tx (crcFrame (byteAt f 0 :: p)) .fresh] } := by
  simp [readRecordAnswer, respond_iblock _ _ _ h, State.enter, State.setFileContext, State.emit]

theorem getDataHitRule_eq (g : GetDataEntry) (f : Bytes) (s : State) (h : isIBlock f = true) :
    getDataHitRule g f s = { s with
      cardState := .idle
      lastNs := nsOf f
      outs := s.outs ++
        [.log (.trans [.idle, .getData, .idle]), .tx (crcFrame (byteAt f 0 :: g.resp)) .fresh] } := by
  simp [getDataHitRule, entryGd, respond_iblock _ _ _ h, State.enter, State.emit]

theorem iblockRule_eq (f : Bytes) (s : State) :
    iblockRule f s = { s with
      cardState := .handleWtx
      nextId := s.nextId + 1
      req := some ⟨s.nextId, apdu f⟩
      lastIblock := some f
      outs := s.outs ++
        [.log (.trans [.idle, .genericIBlock, .handleWtx]), .submit s.nextId (apdu f),
         .tx (wtxFrame s.cfg) .fresh] } := by
  simp [iblockRule, State.enter, State.setNextId, State.setReq, State.setLastIblock, State.emit]

/-- R99: everything the READ RECORD rule can answer, with the payload it sends and the context it
leaves. -/
theorem readRecordRule_next {f : Bytes} {s t : State} (h : readRecordRule f s = .next t) :
    ∃ p ctx, t = readRecordAnswer (rawEntry p) ctx f s
      ∧ (ctx = .invalid ∨ (s.fileContext.due = none ∧ ctx = s.fileContext)
        ∨ ∃ n k e, s.fileContext.due = some n ∧ s.selFile = some k ∧ s.cfg.fileTable[k]? = some e
          ∧ n < e.records.length ∧ FileContext.awaiting (n + 1) = some ctx) := by
  unfold readRecordRule at h
  split at h
  next hd =>
    injection h with h
    subst h
    split <;> exact ⟨_, _, rfl, .inr (.inl ⟨hd, rfl⟩)⟩
  next n hd =>
    split at h
    next => cases h
    next e he =>
      obtain ⟨k, hk, he⟩ := Option.bind_eq_some_iff.mp he
      unfold readDueRule at h
      split at h
      next =>
        injection h with h
        subst h
        exact ⟨_, _, rfl, .inl rfl⟩
      next r _ =>
        split at h
        next hlt =>
          split at h
          next => cases h
          next ctx hc =>
            injection h with h
            subst h
            exact ⟨_, _, rfl, .inr (.inr ⟨n, k, e, hd, hk, he, hlt, hc⟩)⟩
        next =>
          injection h with h
          subst h
          exact ⟨_, _, rfl, .inl rfl⟩

/-- R67: with no row left, the frame is unrecognised. -/
theorem firstRow_nil (cls : FrameClass) (f : Bytes) (s : State) :
    firstRow [] cls f s = .next (unrecognisedRule cls f s) := rfl

/-- R65: the first row fires, or the rows after it are tried. -/
theorem firstRow_cons (r : FrameClass) (rs : List FrameClass) (cls : FrameClass) (f : Bytes)
    (s : State) :
    firstRow (r :: rs) cls f s
      = if rowPattern s.cfg r f && rowGuard r s then rowRule r cls f s else firstRow rs cls f s := by
  unfold firstRow
  by_cases h : (rowPattern s.cfg r f && rowGuard r s) = true
  · rw [List.find?_cons_of_pos (by exact h), if_pos h]
  · rw [List.find?_cons_of_neg (by exact h), if_neg h]

/-- R85 for a received frame in `Idle` or `Halted` of a running machine. -/
theorem onFrame_ready {cls : FrameClass} {f : Bytes} {s : State} (k : State → Result)
    (hr : s.run = .running) (h : s.cardState = .idle ∨ s.cardState = .halted) :
    onFrame cls f s k = k (s.emit (.log (.rx f cls s.cardState))) := by
  rcases h with h | h <;> simp [onFrame, whenRunning_running hr, h]

/-- R85 for a received frame in `NoField` of a running machine. -/
theorem onFrame_noField {cls : FrameClass} {f : Bytes} {s : State} (k : State → Result)
    (hr : s.run = .running) (h : s.cardState = .noField) :
    onFrame cls f s k = .next { s with
      outs := s.outs ++
        [.log (.rx f cls .noField), .log (.error (.unrecognized f cls .noField))] } := by
  simp [onFrame, whenRunning_running hr, h, unrecognisedRule_eq, State.emit]

/-- R85 and R104 for a received frame during a WTX wait of a running machine. -/
theorem onFrame_wait {cls : FrameClass} {f : Bytes} {s : State} (k : State → Result)
    (hr : s.run = .running) (h : s.cardState = .handleWtx) :
    onFrame cls f s k = .next { s with
      outs := s.outs ++ .log (.rx f cls .handleWtx) ::
        if patWtxack f then [] else [.log (.error (.unrecognized f cls .handleWtx))] } := by
  simp [onFrame, whenRunning_running hr, h, waitRule_eq, State.emit]

/-- Everything the dispatch of a received frame can answer as a next state. -/
theorem onFrame_next {cls : FrameClass} {f : Bytes} {s t : State} {k : State → Result}
    (h : onFrame cls f s k = .next t) :
    (s.run ≠ .running ∧ t = s)
    ∨ (s.run = .running ∧ (s.cardState = .noField ∨ s.cardState = .handleWtx)
      ∧ ∃ os, t = { s with outs := s.outs ++ .log (.rx f cls s.cardState) :: os }
        ∧ (os = [] ∨ os = [.log (.error (.unrecognized f cls s.cardState))]))
    ∨ (s.run = .running ∧ (s.cardState = .idle ∨ s.cardState = .halted)
      ∧ k (s.emit (.log (.rx f cls s.cardState))) = .next t) := by
  by_cases hr : s.run = .running
  · by_cases hi : s.cardState = .idle ∨ s.cardState = .halted
    · exact .inr (.inr ⟨hr, hi, by rwa [onFrame_ready k hr hi] at h⟩)
    · refine .inr (.inl ?_)
      by_cases hn : s.cardState = .noField
      · rw [onFrame_noField k hr hn] at h
        injection h with h
        exact ⟨hr, .inl hn, [.log (.error (.unrecognized f cls .noField))], by simp [← h, hn], by simp [hn]⟩
      · by_cases hw : s.cardState = .handleWtx
        · rw [onFrame_wait k hr hw] at h
          injection h with h
          refine ⟨hr, .inr hw, _, by rw [← h, hw], ?_⟩
          split <;> simp [hw]
        · simp only [onFrame, whenRunning_running hr] at h
          split at h <;> simp_all
  · simp only [onFrame, whenRunning_terminated hr] at h
    injection h with h
    exact .inl ⟨hr, h.symm⟩

end Sys2Proof.Machine
end

