-- ==== Sys2Proof/Laws/Effect.lean ====
section
/-! SUPPORT. Everything an event can do to the state, said once: if the machine answers a next state, it is
one of the cases of `Effect`. Proofs about all instructions go by these cases. -/

namespace Sys2Proof.Machine

/-- The ways an event changes the state. -/
inductive Effect : Event → State → State → Prop
  /-- Nothing happens: not to an elapsed budget during a wait of a running machine. -/
  | same (e s) (h : s.run ≠ .running ∨ e ≠ .wtxElapsed ∨ s.cardState ≠ .handleWtx) : Effect e s s
  /-- A frame is recorded, and perhaps found unrecognised. -/
  | frameLogged (f cls os s) (hos : os = [] ∨ os = [.log (.error (.unrecognized f cls s.cardState))]) :
    Effect (.rx f) s { s with outs := s.outs ++ .log (.rx f cls s.cardState) :: os }
  /-- R86. -/
  | fieldOn (s) (h : s.cardState = .noField) : Effect .fieldOn s
    { s with cardState := .idle, outs := s.outs ++ [.log (.trans [.noField, .idle])] }
  /-- R88, R89. -/
  | atqb (f cls path s) (ha : s.active = false) (hc : s.cardState = .idle ∨ s.cardState = .halted) :
    Effect (.rx f) s
    { s with
      cardState := .idle
      outs := s.outs ++
        [.log (.rx f cls s.cardState), .log (.trans path), .tx s.prep.atqb (.cached .atqb)] }
  /-- R90. -/
  | ok (f path s) (ha : s.active = false) (hc : s.cardState = .idle) : Effect (.rx f) s
    { s with
      cardState := .halted
      outs := s.outs ++
        [.log (.rx f .attrib s.cardState), .log (.trans path), .tx s.prep.ok (.cached .ok)] }
  /-- R91. -/
  | reset (f s) (hc : s.cardState = .idle ∨ s.cardState = .halted) (hp : patReset f = true) :
    Effect (.rx f) s
    { s with
      cardState := .idle
      active := false
      fileContext := .none
      selFile := none
      outs := s.outs ++ [.log (.rx f .reset s.cardState), .log (.trans [s.cardState, .idle])] }
  /-- R97. -/
  | selectHit (f cls id k fe s) (hc : s.cardState = .idle ∨ s.cardState = .halted)
    (hp : patSelect s.cfg f = true) (hf : fid? f = some id) (hk : fileAt s.cfg id = some (k, fe)) :
    Effect (.rx f) s
    { s with
      cardState := .idle
      active := true
      selFile := some k
      fileContext := .awaitingFirst
      lastNs := nsOf f
      outs := s.outs ++
        [.log (.rx f cls s.cardState), .log (.trans [.idle, .selectFile (some id), .idle]),
         .tx (crcFrame (byteAt f 0 :: fe.selectResp)) .fresh] }
  /-- R98. -/
  | selectMiss (f cls id s) (hc : s.cardState = .idle ∨ s.cardState = .halted)
    (hp : patSelect s.cfg f = true) : Effect (.rx f) s
    { s with
      cardState := .idle
      selFile := none
      fileContext := .invalid
      lastNs := nsOf f
      outs := s.outs ++
        [.log (.rx f cls s.cardState), .log (.trans [.idle, .selectFile id, .idle]),
         .tx (crcFrame (byteAt f 0 :: s.cfg.swFileNotFound)) .fresh] }
  /-- R99. -/
  | readRecord (f cls p ctx s) (hc : s.cardState = .idle ∨ s.cardState = .halted)
    (ha : s.active = true) (hn : s.fileContext ≠ .none)
    (hx : ctx = .invalid ∨ (s.fileContext.due = none ∧ ctx = s.fileContext)
      ∨ ∃ n k e, s.fileContext.due = some n ∧ s.selFile = some k ∧ s.cfg.fileTable[k]? = some e
        ∧ n < e.records.length ∧ FileContext.awaiting (n + 1) = some ctx) : Effect (.rx f) s
    { s with
      cardState := .idle
      fileContext := ctx
      lastNs := nsOf f
      outs := s.outs ++
        [.log (.rx f cls s.cardState), .log (.trans [.idle, .readRecord, .idle]),
         .tx (crcFrame (byteAt f 0 :: p)) .fresh] }
  /-- R100. -/
  | getData (f cls g s) (hc : s.cardState = .idle ∨ s.cardState = .halted) (ha : s.active = true) :
    Effect (.rx f) s
    { s with
      cardState := .idle
      lastNs := nsOf f
      outs := s.outs ++
        [.log (.rx f cls s.cardState), .log (.trans [.idle, .getData, .idle]),
         .tx (crcFrame (byteAt f 0 :: g)) .fresh] }
  /-- R101. -/
  | iblock (f cls s) (hc : s.cardState = .idle ∨ s.cardState = .halted) (ha : s.active = true)
    (hi : isIBlock f = true) : Effect (.rx f) s
    { s with
      cardState := .handleWtx
      nextId := s.nextId + 1
      req := some ⟨s.nextId, apdu f⟩
      lastIblock := some f
      outs := s.outs ++
        [.log (.rx f cls s.cardState), .log (.trans [.idle, .genericIBlock, .handleWtx]),
         .submit s.nextId (apdu f), .tx (wtxFrame s.cfg) .fresh] }
  /-- R108, R109. -/
  | replyLogged (id p l s) (hl : l = .stray id p ∨ (l = .error (.emptyReply id) ∧ p = [])) :
    Effect (.oracleReply id p) s { s with outs := s.outs ++ [.log l] }
  /-- R107. -/
  | reply (id p b r s) (hw : s.cardState = .handleWtx) (hr : s.req = some r) (hid : r.id = id)
    (hb : s.lastIblock = some b) (hp : p ≠ []) :
    Effect (.oracleReply id p) s (replyRule id p b s)
  /-- R105. -/
  | elapsed (r s) (hw : s.cardState = .handleWtx) (hr : s.req = some r) : Effect .wtxElapsed s
    { s with
      outs := s.outs ++ [.log (.error (.oracleTimeout r.id)), .tx (wtxFrame s.cfg) .fresh] }
  /-- R113. -/
  | exit (e reason os s) (hr : s.run = .running) (hos : os = [.log (.exit reason)]
      ∨ os = [.log (.error .phyEncodeFail), .log (.exit reason)])
    (he : (e = .abort .button ∧ reason = .abortButton) ∨ (e = .abort .host ∧ reason = .abortHost)
      ∨ (e = .noFieldTimeout ∧ reason = .noFieldTimeout) ∨ (e = .phyFail ∧ reason = .phyFail)) :
    Effect e s { s with run := .terminated reason, outs := s.outs ++ os }

/-- The recording of the frame, as `onFrame` leaves the state to the row. -/
theorem emit_eq (s : State) (o : Output) : s.emit o = { s with outs := s.outs ++ [o] } := rfl

theorem unrecognised_effect (cls : FrameClass) (f : Bytes) (s : State) :
    Effect (.rx f) s (unrecognisedRule cls f (s.emit (.log (.rx f cls s.cardState)))) := by
  have h := Effect.frameLogged f cls _ s (.inr rfl)
  simpa [unrecognisedRule_eq, emit_eq] using h

theorem select_effect (cls : FrameClass) (f : Bytes) (s : State)
    (hc : s.cardState = .idle ∨ s.cardState = .halted) (hp : patSelect s.cfg f = true) :
    Effect (.rx f) s (selectRule f (s.emit (.log (.rx f cls s.cardState)))) := by
  have hi : isIBlock f = true := by
    simp only [patSelect, Bool.and_eq_true] at hp; exact hp.1
  unfold selectRule
  split
  next =>
    rw [selectMissRule_eq _ _ _ hi]
    simpa [emit_eq] using Effect.selectMiss f cls none s hc hp
  next id hf =>
    split
    next =>
      rw [selectMissRule_eq _ _ _ hi]
      simpa [emit_eq] using Effect.selectMiss f cls (some id) s hc hp
    next k fe hk =>
      rw [selectHitRule_eq _ _ _ _ _ hi]
      simpa [emit_eq] using Effect.selectHit f cls id k fe s hc hp hf (by simpa using hk)

theorem readRecord_effect {cls : FrameClass} {f : Bytes} {s t : State}
    (hc : s.cardState = .idle ∨ s.cardState = .halted) (hi : isIBlock f = true)
    (hg : guardRead s = true)
    (h : readRecordRule f (s.emit (.log (.rx f cls s.cardState))) = .next t) :
    Effect (.rx f) s t := by
  obtain ⟨p, ctx, rfl, hx⟩ := readRecordRule_next h
  rw [readRecordAnswer_eq _ _ _ _ hi]
  simp only [guardRead, Bool.and_eq_true, bne_iff_ne, ne_eq] at hg
  simpa [emit_eq] using Effect.readRecord f cls p ctx s hc hg.1 hg.2 (by simpa using hx)

theorem iblock_effect (cls : FrameClass) (f : Bytes) (s : State)
    (hc : s.cardState = .idle ∨ s.cardState = .halted) (hi : isIBlock f = true)
    (ha : s.active = true) :
    Effect (.rx f) s (iblockRule f (s.emit (.log (.rx f cls s.cardState)))) := by
  rw [iblockRule_eq]
  simpa [emit_eq] using Effect.iblock f cls s hc ha hi

theorem getData_effect (cls : FrameClass) (f : Bytes) (s : State)
    (hc : s.cardState = .idle ∨ s.cardState = .halted) (hi : isIBlock f = true)
    (ha : s.active = true) :
    Effect (.rx f) s (getDataRule f (s.emit (.log (.rx f cls s.cardState)))) := by
  unfold getDataRule
  split
  next g _ =>
    rw [getDataHitRule_eq _ _ _ hi]
    simpa [emit_eq] using Effect.getData f cls g.resp s hc ha
  next => exact iblock_effect cls f s hc hi ha

/-- Rows 7 to 10, or none of them, as the later rows a frame falls through to. -/
theorem firstRow_effect {rs : List FrameClass} {cls : FrameClass} {f : Bytes} {s t : State}
    (hrs : ∀ r ∈ rs, r = .select ∨ r = .readRecord ∨ r = .getData ∨ r = .iblock)
    (hc : s.cardState = .idle ∨ s.cardState = .halted)
    (h : firstRow rs cls f (s.emit (.log (.rx f cls s.cardState))) = .next t) :
    Effect (.rx f) s t := by
  unfold firstRow at h
  split at h
  next r hr =>
    have hm := hrs r (List.mem_of_find?_eq_some hr)
    have hpg := List.find?_some hr
    simp only [Bool.and_eq_true, emit_cfg] at hpg
    have hi := isIBlock_of_rowPattern hm hpg.1
    rcases hm with rfl | rfl | rfl | rfl
    · injection h with h
      subst h
      exact select_effect cls f s hc hpg.1
    · exact readRecord_effect hc hi hpg.2 h
    · injection h with h
      subst h
      exact getData_effect cls f s hc hi hpg.2
    · injection h with h
      subst h
      exact iblock_effect cls f s hc hi hpg.2
  next =>
    injection h with h
    subst h
    exact unrecognised_effect cls f s

/-- The dispatch of a frame, given what its rows do in `Idle` and `Halted`. -/
theorem onFrame_effect {cls : FrameClass} {f : Bytes} {s t : State} {k : State → Result}
    (hk : (s.cardState = .idle ∨ s.cardState = .halted) →
      k (s.emit (.log (.rx f cls s.cardState))) = .next t → Effect (.rx f) s t)
    (h : onFrame cls f s k = .next t) : Effect (.rx f) s t := by
  rcases onFrame_next h with ⟨hr, rfl⟩ | ⟨-, -, os, rfl, hos⟩ | ⟨-, hc, h⟩
  · exact .same _ _ (.inl hr)
  · exact .frameLogged f cls os s hos
  · exact hk hc h

/-- What each instruction can do. -/
theorem exec_effect {i : Instr} {s t : State} (h : exec i s = .next t) :
    Effect (encode s.cfg i) s t := by
  cases i with
  | wupb afi param c0 c1 =>
    dsimp only [exec, execWupb] at h
    refine onFrame_effect (fun hc hk => ?_) h
    split at hk <;> injection hk with hk <;> subst hk
    next hg =>
      simp only [guardWupb, Bool.and_eq_true, Bool.not_eq_true'] at hg
      rw [wupbRule_eq]
      simpa [emit_eq] using Effect.atqb _ .wupb [s.cardState, .selecting, .idle] s hg.2 hc
    next => exact unrecognised_effect _ _ _
  | reqb afi param c0 c1 =>
    dsimp only [exec, execReqb] at h
    refine onFrame_effect (fun hc hk => ?_) h
    split at hk <;> injection hk with hk <;> subst hk
    next hg =>
      simp only [guardReqb, Bool.and_eq_true, Bool.not_eq_true'] at hg
      rw [reqbRule_eq]
      simpa [emit_eq] using Effect.atqb _ .reqb [.idle, .requesting, .idle] s hg.2 hc
    next => exact unrecognised_effect _ _ _
  | attrib first rest =>
    dsimp only [exec, execAttrib] at h
    refine onFrame_effect (fun hc hk => ?_) h
    split at hk
    next hg =>
      injection hk with hk
      subst hk
      simp only [guardAttrib, Bool.and_eq_true, Bool.not_eq_true', beq_iff_eq] at hg
      rw [attribRule_eq]
      simpa [emit_eq] using Effect.ok _ [.idle, .halting, .halted] s hg.2 hg.1
    next => exact firstRow_effect (by simp) hc hk
  | reset c0 c1 =>
    dsimp only [exec, execReset] at h
    refine onFrame_effect (fun hc hk => ?_) h
    injection hk with hk
    subst hk
    rw [resetRule_eq]
    simpa [emit_eq, resetFrame] using
      Effect.reset (resetFrame c0 c1) s hc (by simp [patReset, resetFrame, byteAt])
  | wtxack m c0 c1 =>
    dsimp only [exec, execWtxack] at h
    refine onFrame_effect (fun _ hk => ?_) h
    injection hk with hk
    subst hk
    exact unrecognised_effect _ _ _
  | halt u c0 c1 =>
    dsimp only [exec, execHalt] at h
    refine onFrame_effect (fun _ hk => ?_) h
    injection hk with hk
    subst hk
    exact unrecognised_effect _ _ _
  | select ns cla body c0 c1 =>
    dsimp only [exec, execSelect] at h
    refine onFrame_effect (fun hc hk => ?_) h
    split at hk
    next =>
      injection hk with hk
      subst hk
      exact select_effect _ _ _ hc (by simp [patSelect, selectFrame, iFrame_ins])
    next => exact firstRow_effect (by simp) hc hk
  | readRecord ns cla body c0 c1 =>
    dsimp only [exec, execReadRecord] at h
    refine onFrame_effect (fun hc hk => ?_) h
    split at hk
    next hg => exact readRecord_effect hc (by simp [readRecordFrame]) hg hk
    next => exact firstRow_effect (by simp) hc hk
  | getData ns cla body c0 c1 =>
    dsimp only [exec, execGetData] at h
    refine onFrame_effect (fun hc hk => ?_) h
    split at hk
    next hg =>
      injection hk with hk
      subst hk
      exact getData_effect _ _ _ hc (by simp [getDataFrame]) hg
    next => exact firstRow_effect (by simp) hc hk
  | iblock ns a c0 c1 =>
    dsimp only [exec, execIblock] at h
    refine onFrame_effect (fun hc hk => ?_) h
    split at hk <;> injection hk with hk <;> subst hk
    next hg => exact iblock_effect _ _ _ hc (by simp) hg
    next => exact unrecognised_effect _ _ _
  | unrecognised f =>
    dsimp only [exec, execUnrecognised] at h
    refine onFrame_effect (fun _ hk => ?_) h
    injection hk with hk
    subst hk
    exact unrecognised_effect _ _ _
  | fieldOn =>
    dsimp only [exec, execFieldOn] at h
    rcases whenRunning_next h with ⟨hr, rfl⟩ | ⟨hr, h⟩
    · exact .same _ _ (.inl hr)
    · split at h <;> injection h with h <;> subst h
      next hc => exact .fieldOn s hc
      next => exact .same _ _ (.inr (.inl (by simp [encode])))
  | rxNone =>
    dsimp only [exec, execRxNone] at h
    rcases whenRunning_next h with ⟨hr, rfl⟩ | ⟨hr, h⟩
    · exact .same _ _ (.inl hr)
    · injection h with h
      subst h
      exact .same _ _ (.inr (.inl (by simp [encode])))
  | oracleReply id p =>
    dsimp only [exec, execOracleReply] at h
    rcases whenRunning_next h with ⟨hr, rfl⟩ | ⟨hr, h⟩
    · exact .same _ _ (.inl hr)
    · split at h
      next =>
        injection h with h
        subst h
        exact .replyLogged id p _ s (.inl rfl)
      next r hr =>
        split at h
        next =>
          injection h with h
          subst h
          exact .replyLogged id p _ s (.inl rfl)
        next hid =>
          split at h
          next => cases h
          next hw =>
            split at h
            next hp =>
              injection h with h
              subst h
              exact .replyLogged id p _ s (.inr ⟨rfl, hp⟩)
            next hp =>
              split at h
              next => cases h
              next b hb =>
                injection h with h
                subst h
                exact .reply id p b r s (not_not.mp hw) hr (not_not.mp hid) hb hp
  | wtxElapsed =>
    dsimp only [exec, execWtxElapsed] at h
    rcases whenRunning_next h with ⟨hr, rfl⟩ | ⟨hr, h⟩
    · exact .same _ _ (.inl hr)
    · split at h
      next hw =>
        split at h
        next => cases h
        next r hr =>
          injection h with h
          subst h
          simpa [emit_eq, encode] using Effect.elapsed r s hw hr
      next hw =>
        injection h with h
        subst h
        exact .same _ _ (.inr (.inr hw))
  | noFieldTimeout =>
    dsimp only [exec, execNoFieldTimeout] at h
    rcases whenRunning_next h with ⟨hr, rfl⟩ | ⟨hr, h⟩
    · exact .same _ _ (.inl hr)
    · injection h with h
      subst h
      exact .exit _ _ _ s hr (.inl rfl) (by simp [encode])
  | abort who =>
    dsimp only [exec, execAbort] at h
    rcases whenRunning_next h with ⟨hr, rfl⟩ | ⟨hr, h⟩
    · exact .same _ _ (.inl hr)
    · injection h with h
      subst h
      exact .exit _ _ _ s hr (.inl rfl) (by cases who <;> simp [encode, abortReason])
  | phyFail =>
    dsimp only [exec, execPhyFail] at h
    rcases whenRunning_next h with ⟨hr, rfl⟩ | ⟨hr, h⟩
    · exact .same _ _ (.inl hr)
    · injection h with h
      subst h
      rw [phyFailure_eq]
      exact .exit _ _ _ s hr (.inr rfl) (by simp [encode])

/-- What a step can do: wait, or take the oldest event and have its effect. The event of the effect is a
variable `d`, so that `cases` on the effect goes through. -/
theorem step_effect {s t : State} (h : step s = .next t) :
    (s.inputs = [] ∧ t = s)
    ∨ ∃ e es d, s.inputs = e :: es
      ∧ exec (decode s.cfg e) { s with inputs := es } = .next t
      ∧ d = encode s.cfg (decode s.cfg e) ∧ Effect d { s with inputs := es } t := by
  unfold step State.takeEvent at h
  cases hi : s.inputs with
  | nil =>
    rw [hi] at h
    injection h with h
    exact .inl ⟨rfl, h.symm⟩
  | cons e es =>
    rw [hi] at h
    exact .inr ⟨e, es, _, rfl, h, rfl, exec_effect h⟩

end Sys2Proof.Machine
end

