-- ==== Sys2Proof/Laws/PerInstr.lean ====
section
/-! SUPPORT. Statements made per instruction. `FrameFits`: a well-formed instruction that is a frame is
encoded within the PHY's bound (R39), with the first byte and the length its row of
spec/opcode_table.json gives. -/

namespace Sys2Proof.Laws

open Sys2Proof.Machine

/-- First byte and length of a row's frame; a row that is no frame has no condition. -/
def FrameFits.shape (c : Cfg) : Instr → Bytes → Prop
  | .wupb _ _ _ _, f => f.length = 5 ∧ byteAt f 0 = 0x05
  | .reqb _ _ _ _, f => f.length = 5 ∧ byteAt f 0 = 0x05
  | .attrib _ _, f => f.length = 11 ∧ (∀ b, c.attribOpcode = some b → byteAt f 0 = b)
  | .reset _ _, f => f.length = 3 ∧ byteAt f 0 = 0x0C
  | .wtxack _ _ _, f => f.length = 4 ∧ byteAt f 0 = 0xF2
  | .halt _ _ _, f => f.length = 7 ∧ byteAt f 0 = 0x50
  | .select _ _ _ _ _, f => 5 ≤ f.length ∧ byteAt f 0 &&& 0xFE = 0x02
  | .readRecord _ _ _ _ _, f => 5 ≤ f.length ∧ byteAt f 0 &&& 0xFE = 0x02
  | .getData _ _ _ _ _, f => 5 ≤ f.length ∧ byteAt f 0 &&& 0xFE = 0x02
  | .iblock _ _ _ _, f => 3 ≤ f.length ∧ byteAt f 0 &&& 0xFE = 0x02
  | .unrecognised _, _ => True
  | .fieldOn, _ => True
  | .rxNone, _ => True
  | .oracleReply _ _, _ => True
  | .wtxElapsed, _ => True
  | .noFieldTimeout, _ => True
  | .abort _, _ => True
  | .phyFail, _ => True

/-- The family's statement of one instruction. -/
def FrameFits.Statement (i : Instr) : Prop :=
  ∀ (c : Cfg) (f : Bytes), WellFormed c i → encode c i = .rx f →
    f.length ≤ c.maxFrame ∧ FrameFits.shape c i f

theorem FrameFits.pcb_mask (ns : Bit) : pcbOf ns &&& 0xFE = 0x02 := by
  revert ns; decide

theorem FrameFits.wupb (afi param c0 c1 : Byte) : FrameFits.Statement (.wupb afi param c0 c1) := by
  intro c f hw he
  cases he
  simp only [WellFormed, wellFormed, Bool.and_eq_true, decide_eq_true_eq] at hw
  exact ⟨by simpa [wupbFrame] using hw.2, rfl, rfl⟩

theorem FrameFits.reqb (afi param c0 c1 : Byte) : FrameFits.Statement (.reqb afi param c0 c1) := by
  intro c f hw he
  cases he
  simp only [WellFormed, wellFormed, Bool.and_eq_true, decide_eq_true_eq] at hw
  exact ⟨by simpa [reqbFrame] using hw.2, rfl, rfl⟩

theorem FrameFits.attrib (first : Byte) (rest : Bytes) :
    FrameFits.Statement (.attrib first rest) := by
  intro c f hw he
  cases he
  simp only [WellFormed, wellFormed, attribShaped, decide_eq_true_eq] at hw
  refine ⟨?_, ?_, ?_⟩
  · simp only [attribFrame, List.length_cons]; omega
  · simp only [attribFrame, List.length_cons]; omega
  · intro b hb
    obtain ⟨⟨-, h | h⟩, -⟩ := hw
    · rw [hb] at h; cases h
    · rw [hb] at h; exact (Option.some.inj h).symm

theorem FrameFits.reset (c0 c1 : Byte) : FrameFits.Statement (.reset c0 c1) := by
  intro c f hw he
  cases he
  exact ⟨of_decide_eq_true hw, rfl, rfl⟩

theorem FrameFits.wtxack (m c0 c1 : Byte) : FrameFits.Statement (.wtxack m c0 c1) := by
  intro c f hw he
  cases he
  exact ⟨of_decide_eq_true hw, rfl, rfl⟩

theorem FrameFits.halt (u : Uid) (c0 c1 : Byte) : FrameFits.Statement (.halt u c0 c1) := by
  intro c f hw he
  cases he
  exact ⟨of_decide_eq_true hw, rfl, rfl⟩

theorem FrameFits.select (ns : Bit) (cla : Byte) (body : Bytes) (c0 c1 : Byte) :
    FrameFits.Statement (.select ns cla body c0 c1) := by
  intro c f hw he
  cases he
  simp only [WellFormed, wellFormed, decide_eq_true_eq] at hw
  refine ⟨?_, ?_, FrameFits.pcb_mask ns⟩ <;>
    simp only [selectFrame, iFrame_length, List.length_cons] <;> omega

theorem FrameFits.readRecord (ns : Bit) (cla : Byte) (body : Bytes) (c0 c1 : Byte) :
    FrameFits.Statement (.readRecord ns cla body c0 c1) := by
  intro c f hw he
  cases he
  simp only [WellFormed, wellFormed, decide_eq_true_eq] at hw
  refine ⟨?_, ?_, FrameFits.pcb_mask ns⟩ <;>
    simp only [readRecordFrame, iFrame_length, List.length_cons] <;> omega

theorem FrameFits.getData (ns : Bit) (cla : Byte) (body : Bytes) (c0 c1 : Byte) :
    FrameFits.Statement (.getData ns cla body c0 c1) := by
  intro c f hw he
  cases he
  simp only [WellFormed, wellFormed, Bool.and_eq_true, decide_eq_true_eq] at hw
  refine ⟨?_, ?_, FrameFits.pcb_mask ns⟩ <;>
    simp only [getDataFrame, iFrame_length, List.length_cons] <;> omega

theorem FrameFits.iblock (ns : Bit) (a : Bytes) (c0 c1 : Byte) :
    FrameFits.Statement (.iblock ns a c0 c1) := by
  intro c f hw he
  cases he
  simp only [WellFormed, wellFormed, Bool.and_eq_true, decide_eq_true_eq] at hw
  refine ⟨?_, ?_, FrameFits.pcb_mask ns⟩ <;>
    simp only [iFrame_length] <;> omega

theorem FrameFits.unrecognised (f : Bytes) : FrameFits.Statement (.unrecognised f) := by
  intro c g hw he
  cases he
  simp only [WellFormed, wellFormed, decide_eq_true_eq] at hw
  exact ⟨hw.1, trivial⟩

theorem FrameFits.fieldOn : FrameFits.Statement .fieldOn := by
  intro c f _ he; cases he

theorem FrameFits.rxNone : FrameFits.Statement .rxNone := by
  intro c f _ he; cases he

theorem FrameFits.oracleReply (id : Ident) (p : Bytes) :
    FrameFits.Statement (.oracleReply id p) := by
  intro c f _ he; cases he

theorem FrameFits.wtxElapsed : FrameFits.Statement .wtxElapsed := by
  intro c f _ he; cases he

theorem FrameFits.noFieldTimeout : FrameFits.Statement .noFieldTimeout := by
  intro c f _ he; cases he

theorem FrameFits.abort (who : AbortSource) : FrameFits.Statement (.abort who) := by
  intro c f _ he; cases he

theorem FrameFits.phyFail : FrameFits.Statement .phyFail := by
  intro c f _ he; cases he

end Sys2Proof.Laws
end

