-- ==== Sys2Proof/Laws/Safety.lean ====
section
/-! SUPPORT. The small lemmas of the terms of Safety.lean, and what the duplicate check of the file table
says. -/

namespace Sys2Proof.Machine

/-- Ruling I5 by index: entries with the same id are the same entry. -/
theorem fileIdsDistinct_iff (c : Cfg) : fileIdsDistinct c = true ↔
    ∀ (j k : Nat) (e e' : FileEntry),
      c.fileTable[j]? = some e → c.fileTable[k]? = some e' → e.fid = e'.fid → j = k := by
  simp only [fileIdsDistinct, decide_eq_true_eq, List.nodup_iff_getElem?_ne_getElem?,
    List.length_map, List.getElem?_map]
  constructor
  · intro h j k e e' hj hk he
    have hlj : j < c.fileTable.length := (List.getElem?_eq_some_iff.1 hj).1
    have hlk : k < c.fileTable.length := (List.getElem?_eq_some_iff.1 hk).1
    rcases Nat.lt_trichotomy j k with hl | hl | hl
    · exact absurd (by simp [hj, hk, he]) (h j k hl hlk)
    · exact hl
    · exact absurd (by simp [hj, hk, he]) (h k j hl hlj)
  · intro h j k hl hk he
    have hj : j < c.fileTable.length := by omega
    rw [List.getElem?_eq_getElem hj, List.getElem?_eq_getElem hk] at he
    have := h j k _ _ (List.getElem?_eq_getElem hj) (List.getElem?_eq_getElem hk) (by simpa using he)
    omega

/-- A frame bare of its CRC bytes is what stands before them (R54). -/
@[simp] theorem bareFrame_append (f : Bytes) (a b : Byte) : bareFrame (f ++ [a, b]) = f := by
  simp [bareFrame]

/-- A state that has appended `os` has appended exactly `os`. -/
@[simp] theorem newOutputs_append (s t : State) (os : List Output) (h : t.outs = s.outs ++ os) :
    newOutputs s t = os := by
  simp [newOutputs, h]

/-- The bare answer of a next state that has appended `os`. -/
theorem bareResult_next (s t : State) (os : List Output) (h : t.outs = s.outs ++ os) :
    bareResult s (.next t) = .next
      { t with
        lastIblock := t.lastIblock.map bareFrame
        outs := s.outs ++ os.map bareOutput } := by
  simp [bareResult, newOutputs, h]

@[simp] theorem bareOutput_tx (b : Bytes) (src : TxSource) : bareOutput (.tx b src) = .tx b src := rfl
@[simp] theorem bareOutput_submit (id : Ident) (p : Bytes) :
    bareOutput (.submit id p) = .submit id p := rfl
@[simp] theorem bareOutput_rx (f : Bytes) (cls : FrameClass) (st : CardState) :
    bareOutput (.log (.rx f cls st)) = .log (.rx (bareFrame f) cls st) := rfl
@[simp] theorem bareOutput_trans (path : List CardState) :
    bareOutput (.log (.trans path)) = .log (.trans path) := rfl
@[simp] theorem bareOutput_error (e : ErrorEntry) :
    bareOutput (.log (.error e)) = .log (.error (bareError e)) := rfl

end Sys2Proof.Machine
end

