-- ==== Sys2Proof/Tests/Slice0.lean ====
section
/-! SUPPORT. Tests of the model's own. Expected values are those of spec/95_test_vectors.md (the vector is
named beside each test). After them, for every statement with hypotheses, states and operands that meet
them. -/

namespace Sys2Proof.Tests

open Sys2Proof Sys2Proof.Machine

-- One theorem after another: kernel evaluations that wait for each other would each hold a thread.
set_option Elab.async false

/-! ### TC1 and the states the tests start from -/

/-- TC1 of 95_test_vectors.md §1, the spec's test configuration. -/
def tc1 : Cfg where
  defaultUid := [0x11, 0x22, 0x33, 0x44]
  hostUid := none
  atqbAppData := [0x00, 0x00, 0x00, 0x00]
  atqbBitRate := 0x00
  atqbMaxFrame := 0x71
  atqbFwi := 0x71
  fileTable :=
    [⟨[0x3F, 0x04], [0xAA, 0x01, 0x90, 0x00],
        [[0x01, 0x11, 0x90, 0x00], [0x02, 0x22, 0x90, 0x00]]⟩,
      ⟨[0x20, 0x00], [0xAA, 0x02, 0x90, 0x00],
        [[0x03, 0x33, 0x90, 0x00], [0x04, 0x44, 0x90, 0x00], [0x05, 0x55, 0x90, 0x00]]⟩]
  swFileNotFound := [0x6A, 0x82]
  swNoMoreRecord := [0x6A, 0x83]
  getDataTable := [⟨[0x00, 0xCA, 0x00, 0x6E, 0x00], [0x6E, 0x01, 0x90, 0x00]⟩]
  insSelect := 0xA4
  insReadRecord := 0xB2
  insGetData := 0xCA
  attribOpcode := none
  wtxUnits := 5
  wtxBudget := 0
  rxTimeout := 0
  noFieldTimeout := 0
  maxFrame := 64

/-- TC1's session, in `NoField`. -/
def fresh : State := State.session tc1 ⟨0x11, 0x22, 0x33, 0x44⟩

/-- `Idle/false`. -/
def idle : State := { fresh with cardState := .idle }

/-- `Halted/false`. -/
def halted : State := { fresh with cardState := .halted }

/-- `Idle/true` with file `k` selected. -/
def opened (k : Nat) (ctx : FileContext) : State :=
  { idle with active := true, fileContext := ctx, selFile := some k }

/-- `Idle/true` after a SELECT of an unknown file. -/
def missed : State := { opened 0 .invalid with selFile := none }

/-- The generic I-block of 95_test_vectors.md §3.5. -/
def block : Bytes := [0x03, 0x00, 0x88, 0x00, 0x00, 0x04, 0x01, 0x02, 0x03, 0x04, 0x10, 0x19]

/-- A WTX wait, as 95_test_vectors.md §3.5 starts it. -/
def waiting : State :=
  { opened 0 .awaitingFirst with
    cardState := .handleWtx
    req := some ⟨0, [0x00, 0x88, 0x00, 0x00, 0x04, 0x01, 0x02, 0x03, 0x04]⟩
    lastIblock := some block
    nextId := 1 }

/-- A terminated machine. -/
def ended : State := { idle with run := .terminated .abortHost }

/-- The state after one step that takes the event `e`. -/
def after (s : State) (e : Event) : Option State :=
  match step { s with inputs := [e] } with
  | .next t => some t
  | .fault _ => none
  | .refused _ => none

/-- The outputs of one step that takes the event `e`. -/
def outsAfter (s : State) (e : Event) : Option (List Output) := (after s e).map fun t => t.outs

/-- The ATQB of TC1. -/
def atqb : Bytes :=
  [0x50, 0x11, 0x22, 0x33, 0x44, 0x00, 0x00, 0x00, 0x00, 0x00, 0x71, 0x71, 0xDE, 0xD4]

def wupb : Bytes := [0x05, 0x00, 0x08, 0x39, 0x73]
def reqb : Bytes := [0x05, 0x00, 0x00, 0x71, 0xFF]
def attrib : Bytes := [0x1D, 0x11, 0x22, 0x33, 0x44, 0x00, 0x08, 0x01, 0x00, 0xDB, 0x35]
def reset : Bytes := [0x0C, 0x14, 0x3A]
def halt : Bytes := [0x50, 0x11, 0x22, 0x33, 0x44, 0x66, 0x4B]
def wtxack : Bytes := [0xF2, 0x05, 0x52, 0x17]
def select0 : Bytes := [0x02, 0x00, 0xA4, 0x00, 0x00, 0x02, 0x3F, 0x04, 0x84, 0xDE]
def select9 : Bytes := [0x02, 0x00, 0xA4, 0x00, 0x00, 0x02, 0x99, 0x99, 0xC7, 0x6A]
def selectLe : Bytes := [0x02, 0x00, 0xA4, 0x00, 0x00, 0x02, 0x3F, 0x04, 0x00, 0x8A, 0x32]
def read0 : Bytes := [0x02, 0x00, 0xB2, 0x01, 0x04, 0x00, 0x8F, 0x9A]
def read1 : Bytes := [0x03, 0x00, 0xB2, 0x01, 0x04, 0x00, 0xA4, 0x9E]
def getData0 : Bytes := [0x02, 0x00, 0xCA, 0x00, 0x6E, 0x00, 0xEB, 0xE7]

/-! ### WellFormed refuses an ill-formed term, check by check -/

theorem test_wf_wupb_param : wellFormed tc1 (.wupb 0x00 0xF7 0x39 0x73) = false := by decide
theorem test_wf_reqb_param : wellFormed tc1 (.reqb 0x00 0x08 0x39 0x73) = false := by decide
theorem test_wf_attrib_length :
    wellFormed tc1 (.attrib 0x1D (List.replicate 9 0x00)) = false := by decide
theorem test_wf_attrib_opcode : wellFormed { tc1 with attribOpcode := some 0x1D }
    (.attrib 0x1E (List.replicate 10 0x00)) = false := by decide

/-- A frame longer than `P_MAX_FRAME`, for each instruction of a frame. -/
theorem test_wf_maxFrame :
    wellFormed { tc1 with maxFrame := 4 } (.wupb 0x00 0x08 0x39 0x73) = false
    ∧ wellFormed { tc1 with maxFrame := 4 } (.reqb 0x00 0x00 0x71 0xFF) = false
    ∧ wellFormed { tc1 with maxFrame := 10 } (.attrib 0x1D (List.replicate 10 0x00)) = false
    ∧ wellFormed { tc1 with maxFrame := 2 } (.reset 0x14 0x3A) = false
    ∧ wellFormed { tc1 with maxFrame := 3 } (.wtxack 0x05 0x52 0x17) = false
    ∧ wellFormed { tc1 with maxFrame := 6 } (.halt ⟨0x11, 0x22, 0x33, 0x44⟩ 0x66 0x4B) = false
    ∧ wellFormed { tc1 with maxFrame := 4 } (.select 0 0x00 [] 0x00 0x00) = false
    ∧ wellFormed { tc1 with maxFrame := 4 } (.readRecord 0 0x00 [] 0x00 0x00) = false
    ∧ wellFormed { tc1 with maxFrame := 7 } (.getData 0 0x00 [0x00, 0x6E, 0x00] 0x00 0x00) = false
    ∧ wellFormed { tc1 with maxFrame := 2 } (.iblock 0 [] 0x6A 0xD3) = false
    ∧ wellFormed { tc1 with maxFrame := 0 } (.unrecognised [0x02]) = false := by decide

/-- An 11-byte I-block is of class ATTRIB. -/
theorem test_wf_eleven :
    wellFormed tc1 (.select 0 0x00 (List.replicate 6 0x00) 0x00 0x00) = false
    ∧ wellFormed tc1 (.readRecord 0 0x00 (List.replicate 6 0x00) 0x00 0x00) = false
    ∧ wellFormed { tc1 with getDataTable := [⟨0x00 :: 0xCA :: List.replicate 6 0x00, []⟩] }
      (.getData 0 0x00 (List.replicate 6 0x00) 0x00 0x00) = false
    ∧ wellFormed tc1 (.iblock 0 (List.replicate 8 0x00) 0x00 0x00) = false := by decide

/-- An INS value that an earlier class has too. -/
theorem test_wf_ins :
    wellFormed { tc1 with insReadRecord := 0xA4 } (.readRecord 0 0x00 [] 0x00 0x00) = false
    ∧ wellFormed { tc1 with insGetData := 0xA4, getDataTable := [⟨[0x00, 0xA4], []⟩] }
      (.getData 0 0x00 [] 0x00 0x00) = false
    ∧ wellFormed { tc1 with insGetData := 0xB2, getDataTable := [⟨[0x00, 0xB2], []⟩] }
      (.getData 0 0x00 [] 0x00 0x00) = false := by decide

theorem test_wf_getData_key : wellFormed tc1 (.getData 0 0x00 [0x00, 0x6F, 0x00] 0x33 0xFE) = false := by
  decide

/-- A generic I-block whose APDU an earlier class claims. -/
theorem test_wf_iblock_claimed :
    wellFormed tc1 (.iblock 0 [0x00, 0xA4] 0x00 0x00) = false
    ∧ wellFormed tc1 (.iblock 0 [0x00, 0xB2] 0x00 0x00) = false
    ∧ wellFormed tc1 (.iblock 0 [0x00, 0xCA, 0x00, 0x6E, 0x00] 0x00 0x00) = false := by decide

/-- A frame of some class is not `unrecognised`. -/
theorem test_wf_unrecognised :
    wellFormed tc1 (.unrecognised wupb) = false ∧ wellFormed tc1 (.unrecognised attrib) = false
    ∧ wellFormed tc1 (.unrecognised reset) = false ∧ wellFormed tc1 (.unrecognised wtxack) = false
    ∧ wellFormed tc1 (.unrecognised halt) = false
    ∧ wellFormed tc1 (.unrecognised [0x02, 0x6A, 0xD3]) = false := by decide

/-! ### Decoding of words written out from the spec's encodings (vectors V-E1 to V-E17) -/

theorem test_decode_wupb : decodeFrame tc1 [0x05, 0x00, 0x08, 0x39, 0x73] = .wupb 0x00 0x08 0x39 0x73 := by
  decide
theorem test_decode_reqb : decodeFrame tc1 [0x05, 0x00, 0x00, 0x71, 0xFF] = .reqb 0x00 0x00 0x71 0xFF := by
  decide
theorem test_decode_attrib :
    decodeFrame tc1 [0x1D, 0x11, 0x22, 0x33, 0x44, 0x00, 0x08, 0x01, 0x00, 0xDB, 0x35]
      = .attrib 0x1D [0x11, 0x22, 0x33, 0x44, 0x00, 0x08, 0x01, 0x00, 0xDB, 0x35] := by decide
/-- V-E6: length 11 wins over SELECT. -/
theorem test_decode_eleven :
    decodeFrame tc1 [0x02, 0x00, 0xA4, 0x00, 0x00, 0x02, 0x3F, 0x04, 0x00, 0x8A, 0x32]
      = .attrib 0x02 [0x00, 0xA4, 0x00, 0x00, 0x02, 0x3F, 0x04, 0x00, 0x8A, 0x32] := by decide
theorem test_decode_reset : decodeFrame tc1 [0x0C, 0x14, 0x3A] = .reset 0x14 0x3A := by decide
theorem test_decode_wtxack : decodeFrame tc1 [0xF2, 0x3B, 0x00, 0x00] = .wtxack 0x3B 0x00 0x00 := by decide
theorem test_decode_halt : decodeFrame tc1 [0x50, 0x11, 0x22, 0x33, 0x44, 0x66, 0x4B]
    = .halt ⟨0x11, 0x22, 0x33, 0x44⟩ 0x66 0x4B := by decide
theorem test_decode_select :
    decodeFrame tc1 [0x02, 0x00, 0xA4, 0x00, 0x00, 0x02, 0x3F, 0x04, 0x84, 0xDE]
      = .select 0 0x00 [0x00, 0x00, 0x02, 0x3F, 0x04] 0x84 0xDE := by decide
theorem test_decode_readRecord : decodeFrame tc1 [0x03, 0x00, 0xB2, 0x01, 0x04, 0x00, 0xA4, 0x9E]
    = .readRecord 1 0x00 [0x01, 0x04, 0x00] 0xA4 0x9E := by decide
theorem test_decode_getData : decodeFrame tc1 [0x02, 0x00, 0xCA, 0x00, 0x6E, 0x00, 0xEB, 0xE7]
    = .getData 0 0x00 [0x00, 0x6E, 0x00] 0xEB 0xE7 := by decide
/-- V-E14, second frame: a GET DATA that is no key of the table is a generic I-block. -/
theorem test_decode_iblock : decodeFrame tc1 [0x02, 0x00, 0xCA, 0x00, 0x6F, 0x00, 0x33, 0xFE]
    = .iblock 0 [0x00, 0xCA, 0x00, 0x6F, 0x00] 0x33 0xFE := by decide
/-- V-E15 to V-E17. -/
theorem test_decode_short :
    decodeFrame tc1 [0x03, 0xE3, 0xC2] = .iblock 1 [] 0xE3 0xC2
    ∧ decodeFrame tc1 [0x02, 0x00] = .unrecognised [0x02, 0x00]
    ∧ decodeFrame tc1 [] = .unrecognised []
    ∧ decodeFrame tc1 [0xF2, 0x05, 0x52] = .unrecognised [0xF2, 0x05, 0x52]
    ∧ decodeFrame tc1 [0xA2, 0x00, 0xA4, 0x00] = .unrecognised [0xA2, 0x00, 0xA4, 0x00] := by decide
/-- The events of R52 that are no frames. -/
theorem test_decode_events :
    decode tc1 .fieldOn = .fieldOn ∧ decode tc1 .rxNone = .rxNone
    ∧ decode tc1 (.oracleReply 5 [0x90, 0x00]) = .oracleReply 5 [0x90, 0x00]
    ∧ decode tc1 .wtxElapsed = .wtxElapsed ∧ decode tc1 .noFieldTimeout = .noFieldTimeout
    ∧ decode tc1 (.abort .button) = .abort .button ∧ decode tc1 .phyFail = .phyFail := by decide
theorem test_encode_select :
    encode tc1 (.select 0 0x00 [0x00, 0x00, 0x02, 0x3F, 0x04] 0x84 0xDE) = .rx select0 := by decide
theorem test_tableWord :
    decodeTableWord 24 0x3A140C = some (.reset 0x14 0x3A)
    ∧ decodeTableWord 8 0x50 = some (.halt ⟨0x00, 0x00, 0x00, 0x00⟩ 0x00 0x00) := by decide

/-! ### Codec (vectors V-C1 to V-C18) -/

theorem test_crc_check :
    crc16b [0x31, 0x32, 0x33, 0x34, 0x35, 0x36, 0x37, 0x38, 0x39] = 0x906E ∧ crc16b [] = 0x0000 := by
  decide +kernel
theorem test_crc_frame : crcFrame [0x05, 0x00, 0x08] = wupb ∧ crcFrame [0x0C] = reset := by decide +kernel
theorem test_crc_residue : crcBytes wupb = [0x47, 0x0F] ∧ crcBytes halt = [0x47, 0x0F] := by decide +kernel
theorem test_finalize_iblock :
    finalize (rawEntry [0x90, 0x00]) read1 = (⟨[0x03, 0x90, 0x00, 0xF5, 0x30], true, true⟩, []) := by
  decide +kernel
theorem test_finalize_wupb :
    finalize (rawEntry [0x90, 0x00]) wupb = (⟨[0x50, 0x90, 0x00, 0x72, 0x5C], true, true⟩, []) := by
  decide +kernel
theorem test_finalize_unknown :
    finalize (rawEntry [0x90, 0x00]) wtxack
      = (⟨[0x90, 0x00, 0x1A, 0x16], false, true⟩, [.log (.error (.unknownPcb wtxack))]) := by
  decide +kernel
theorem test_finalize_ok : (finalize entryOk read0).1.payload = [0x00, 0x78, 0xF0] := by decide
/-- X6 and V-C16: the identifier is put in before the CRC is computed. -/
theorem test_atqb_uid : atqbFrame tc1 ⟨0xC3, 0xF7, 0x0B, 0xF7⟩
    = [0x50, 0xC3, 0xF7, 0x0B, 0xF7, 0x00, 0x00, 0x00, 0x00, 0x00, 0x71, 0x71, 0x1E, 0x37] := by
  decide +kernel
/-- V-E18. -/
theorem test_wtxFrame :
    wtxFrame { tc1 with wtxUnits := 0 } = [0xF2, 0x01, 0x76, 0x51]
    ∧ wtxFrame { tc1 with wtxUnits := 1 } = [0xF2, 0x01, 0x76, 0x51]
    ∧ wtxFrame tc1 = [0xF2, 0x05, 0x52, 0x17]
    ∧ wtxFrame { tc1 with wtxUnits := 59 } = [0xF2, 0x3B, 0xAF, 0xCF]
    ∧ wtxFrame { tc1 with wtxUnits := 60 } = [0xF2, 0x3B, 0xAF, 0xCF]
    ∧ wtxFrame { tc1 with wtxUnits := 255 } = [0xF2, 0x3B, 0xAF, 0xCF] := by decide +kernel
/-- R70's pseudo-instructions: P1's `IBLK 0 00 A4 00 00 02 3F 04` and `RXC 0C`. -/
theorem test_script :
    (ScriptLine.iblk 0 [0x00, 0xA4, 0x00, 0x00, 0x02, 0x3F, 0x04]).event = .rx select0
    ∧ (ScriptLine.rxc [0x0C]).event = .rx reset := by decide +kernel

/-! ### One step per instruction -/

/-- V-L4. -/
theorem test_wupb : outsAfter idle (.rx wupb)
    = some [.log (.rx wupb .wupb .idle), .log (.trans [.idle, .selecting, .idle]),
      .tx atqb (.cached .atqb)] := by decide +kernel
/-- V-L13. -/
theorem test_wupb_active : outsAfter (opened 0 .awaitingFirst) (.rx wupb)
    = some [.log (.rx wupb .wupb .idle), .log (.error (.unrecognized wupb .wupb .idle))] := by
  decide +kernel
/-- V-L6. -/
theorem test_reqb : outsAfter idle (.rx reqb)
    = some [.log (.rx reqb .reqb .idle), .log (.trans [.idle, .requesting, .idle]),
      .tx atqb (.cached .atqb)] := by decide +kernel
/-- V-L10. -/
theorem test_reqb_halted : outsAfter halted (.rx reqb)
    = some [.log (.rx reqb .reqb .halted), .log (.error (.unrecognized reqb .reqb .halted))] := by
  decide +kernel
/-- V-L7. -/
theorem test_attrib : (after idle (.rx attrib)).map (fun t => (t.cardState, t.outs))
    = some (.halted, [.log (.rx attrib .attrib .idle), .log (.trans [.idle, .halting, .halted]),
      .tx [0x00, 0x78, 0xF0] (.cached .ok)]) := by decide +kernel
/-- V-A18. -/
theorem test_attrib_select : outsAfter (opened 1 .invalid) (.rx selectLe)
    = some [.log (.rx selectLe .attrib .idle),
      .log (.trans [.idle, .selectFile (some (0x3F, 0x04)), .idle]),
      .tx [0x02, 0xAA, 0x01, 0x90, 0x00, 0xED, 0xE4] .fresh] := by decide +kernel
/-- V-L9. -/
theorem test_reset : (after (opened 0 .awaitingSecond) (.rx reset)).map
    (fun t => (t.active, t.fileContext, t.selFile, t.outs))
    = some (false, .none, none, [.log (.rx reset .reset .idle), .log (.trans [.idle, .idle])]) := by
  decide +kernel
/-- V-W6. -/
theorem test_reset_wait : (after waiting (.rx reset)).map (fun t => (t.active, t.outs))
    = some (true, [.log (.rx reset .reset .handleWtx),
      .log (.error (.unrecognized reset .reset .handleWtx))]) := by decide +kernel
/-- V-W2. -/
theorem test_wtxack_wait :
    outsAfter waiting (.rx wtxack) = some [.log (.rx wtxack .wtxack .handleWtx)] := by decide +kernel
/-- V-L14. -/
theorem test_wtxack_idle : outsAfter idle (.rx wtxack)
    = some [.log (.rx wtxack .wtxack .idle), .log (.error (.unrecognized wtxack .wtxack .idle))] := by
  decide +kernel
/-- V-L15. -/
theorem test_halt : outsAfter idle (.rx halt)
    = some [.log (.rx halt .halt .idle), .log (.error (.unrecognized halt .halt .idle))] := by
  decide +kernel
/-- V-A1. -/
theorem test_select : (after idle (.rx select0)).map
    (fun t => (t.active, t.fileContext, t.selFile, t.outs))
    = some (true, .awaitingFirst, some 0, [.log (.rx select0 .select .idle),
      .log (.trans [.idle, .selectFile (some (0x3F, 0x04)), .idle]),
      .tx [0x02, 0xAA, 0x01, 0x90, 0x00, 0xED, 0xE4] .fresh]) := by decide +kernel
/-- V-A7. -/
theorem test_select_unknown : (after (opened 0 .awaitingFirst) (.rx select9)).map
    (fun t => (t.active, t.fileContext, t.selFile, t.outs.drop 2))
    = some (true, .invalid, none, [.tx [0x02, 0x6A, 0x82, 0x4B, 0x4C] .fresh]) := by decide +kernel
/-- V-A2. -/
theorem test_readRecord : (after (opened 0 .awaitingFirst) (.rx read1)).map
    (fun t => (t.fileContext, t.lastNs, t.outs.drop 2))
    = some (.awaitingSecond, 1, [.tx [0x03, 0x01, 0x11, 0x90, 0x00, 0x14, 0x08] .fresh]) := by
  decide +kernel
/-- V-A3: the last record. -/
theorem test_readRecord_last : (after (opened 0 .awaitingSecond) (.rx read0)).map
    (fun t => (t.fileContext, t.selFile, t.outs.drop 2))
    = some (.invalid, some 0, [.tx [0x02, 0x02, 0x22, 0x90, 0x00, 0x57, 0x4F] .fresh]) := by
  decide +kernel
/-- V-A12. -/
theorem test_getData : (after (opened 0 .awaitingSecond) (.rx getData0)).map
    (fun t => (t.fileContext, t.outs.drop 1))
    = some (.awaitingSecond, [.log (.trans [.idle, .getData, .idle]),
      .tx [0x02, 0x6E, 0x01, 0x90, 0x00, 0xD8, 0xAD] .fresh]) := by decide +kernel
/-- V-A16. -/
theorem test_getData_inactive : outsAfter idle (.rx getData0)
    = some [.log (.rx getData0 .getData .idle),
      .log (.error (.unrecognized getData0 .getData .idle))] := by decide +kernel
/-- X4. -/
theorem test_iblock : outsAfter (opened 0 .awaitingFirst) (.rx block)
    = some [.log (.rx block .iblock .idle), .log (.trans [.idle, .genericIBlock, .handleWtx]),
      .submit 0 [0x00, 0x88, 0x00, 0x00, 0x04, 0x01, 0x02, 0x03, 0x04],
      .tx [0xF2, 0x05, 0x52, 0x17] .fresh] := by decide +kernel
/-- V-A17: the id wraps. -/
theorem test_iblock_wraps :
    (after { opened 0 .awaitingFirst with nextId := 0xFFFFFFFF } (.rx block)).map (fun t => (t.nextId, t.req))
    = some (0, some ⟨0xFFFFFFFF, [0x00, 0x88, 0x00, 0x00, 0x04, 0x01, 0x02, 0x03, 0x04]⟩) := by
  decide +kernel
/-- V-L18. -/
theorem test_unrecognised : outsAfter idle (.rx [0x02])
    = some [.log (.rx [0x02] .unknown .idle), .log (.error (.unrecognized [0x02] .unknown .idle))] := by
  decide +kernel
/-- V-L1. -/
theorem test_fieldOn : (after fresh .fieldOn).map (fun t => (t.cardState, t.outs))
    = some (.idle, [.log (.trans [.noField, .idle])]) := by decide +kernel
/-- V-W10: ignored during a wait. -/
theorem test_fieldOn_wait : after waiting .fieldOn = some waiting := by decide +kernel
/-- V-L3. -/
theorem test_rxNone : after waiting .rxNone = some waiting := by decide +kernel
/-- V-W3. -/
theorem test_oracleReply :
    outsAfter waiting (.oracleReply 0 [0x11, 0x22, 0x33, 0x90, 0x00])
      = some [.log (.reply 0 [0x11, 0x22, 0x33, 0x90, 0x00]), .log (.trans [.handleWtx, .idle]),
        .tx [0x03, 0x11, 0x22, 0x33, 0x90, 0x00, 0x44, 0x82] .fresh]
    ∧ (after waiting (.oracleReply 0 [0x11, 0x22, 0x33, 0x90, 0x00])).map
      (fun t => (t.cardState, t.req, t.lastIblock, t.lastNs)) = some (.idle, none, none, 1) := by
  decide +kernel
/-- V-W9: a wrong id. -/
theorem test_oracleReply_stray : (after waiting (.oracleReply 5 [0x90, 0x00])).map
    (fun t => (t.cardState, t.outs)) = some (.handleWtx, [.log (.stray 5 [0x90, 0x00])]) := by
  decide +kernel
/-- V-W1. -/
theorem test_wtxElapsed : (after waiting .wtxElapsed).map (fun t => (t.cardState, t.outs))
    = some (.handleWtx, [.log (.error (.oracleTimeout 0)), .tx [0xF2, 0x05, 0x52, 0x17] .fresh]) := by
  decide +kernel
/-- V-W12. -/
theorem test_wtxElapsed_idle : after idle .wtxElapsed = some idle := by decide +kernel
/-- V-W11. -/
theorem test_noFieldTimeout : (after waiting .noFieldTimeout).map (fun t => (t.run, t.outs))
    = some (.terminated .noFieldTimeout, [.log (.exit .noFieldTimeout)]) := by decide +kernel
/-- V-X1. -/
theorem test_abort_button : (after idle (.abort .button)).map (fun t => (t.run, t.outs))
    = some (.terminated .abortButton, [.log (.exit .abortButton)]) := by decide +kernel
/-- V-X6. -/
theorem test_abort_host : (after fresh (.abort .host)).map (fun t => (t.run, t.outs))
    = some (.terminated .abortHost, [.log (.exit .abortHost)]) := by decide +kernel
/-- V-X4. -/
theorem test_phyFail : (after idle .phyFail).map (fun t => (t.run, t.outs))
    = some (.terminated .phyFail, [.log (.error .phyEncodeFail), .log (.exit .phyFail)]) := by
  decide +kernel
/-- V-X5. -/
theorem test_phyFail_ended : after ended .phyFail = some ended := by decide +kernel

/-! ### Session creation (vectors V-I1 to V-I7) -/

theorem test_init : (initSession tc1 none true true).map (fun s => (s.run, s.cardState, s.prep, s.outs))
    = some (.running, .noField, ⟨atqb, [0x00, 0x78, 0xF0]⟩, []) := by decide +kernel
theorem test_init_host : (initSession tc1 (some [0xC3, 0xF7, 0x0B, 0xF7]) true true).map
    (fun s => s.uidOverride) = some ⟨0xC3, 0xF7, 0x0B, 0xF7⟩ := by decide +kernel
theorem test_init_phySetup : (initSession tc1 none false true).map (fun s => (s.run, s.outs))
    = some (.terminated .phySetupFail, [.log (.exit .phySetupFail)]) := by decide +kernel
theorem test_init_encode : (initSession tc1 none true false).map (fun s => (s.run, s.outs))
    = some (.terminated .phyFail, [.log (.error .phyEncodeFail), .log (.exit .phyFail)]) := by
  decide +kernel
theorem test_init_refused :
    initSession { tc1 with fileTable := tc1.fileTable.drop 1 } none true true = none
    ∧ initSession { tc1 with fileTable := [⟨[0x3F, 0x04], [], [[], [], [], []]⟩] } none true true = none
    ∧ initSession tc1 (some [0x11, 0x22, 0x33]) true true = none := by decide +kernel
/-- Ruling I5 of 93_implementation_defined.md: duplicate file ids, next to each other and apart. -/
theorem test_init_duplicate_ids :
    initSession { tc1 with fileTable := ⟨[0x3F, 0x04], [], []⟩ :: tc1.fileTable } none true true = none
    ∧ initSession { tc1 with fileTable := ⟨[0x20, 0x00], [], []⟩ :: tc1.fileTable } none true true = none := by
  decide +kernel

/-! ### Hypotheses that can be met

For every statement with hypotheses, one theorem per clause gives a state and operands that meet them. -/

theorem witness_StepRunsDecodedEvent :
    let s : State := { idle with inputs := [.rx select0, .fieldOn] }
    let i : Instr := .select 0 0x00 [0x00, 0x00, 0x02, 0x3F, 0x04] 0x84 0xDE
    WellFormed s.cfg i ∧ s.inputs = encode s.cfg i :: [.fieldOn] := by decide
theorem witness_StepWithoutEventWaits : State.reset.inputs = [] := rfl
theorem witness_EventsRunInArrivalOrder :
    ∃ t, runEvents [.fieldOn, .rx wupb] { fresh with inputs := [] } = .next t := ⟨_, rfl⟩
theorem witness_TerminatedAbsorbsEverything : ended.run ≠ .running := by decide
theorem witness_DecodeOfEncode :
    WellFormed tc1 (.wupb 0xFF 0xFF 0x00 0x00) ∧ WellFormed tc1 (.reqb 0x00 0xF7 0x00 0x00)
    ∧ WellFormed tc1 (.attrib 0x02 (List.replicate 10 0xFF)) ∧ WellFormed tc1 (.reset 0x00 0x00)
    ∧ WellFormed tc1 (.wtxack 0x00 0x00 0x00) ∧ WellFormed tc1 (.halt ⟨0, 0, 0, 0⟩ 0x00 0x00)
    ∧ WellFormed tc1 (.select 1 0x00 [] 0x00 0x00) ∧ WellFormed tc1 (.readRecord 1 0x00 [] 0x00 0x00)
    ∧ WellFormed tc1 (.getData 0 0x00 [0x00, 0x6E, 0x00] 0x00 0x00)
    ∧ WellFormed tc1 (.iblock 0 (List.replicate 61 0x00) 0x00 0x00)
    ∧ WellFormed tc1 (.unrecognised []) := by decide
theorem witness_EveryFrameDecodesWellFormed :
    (List.replicate 64 (0x02 : Byte)).length ≤ tc1.maxFrame := by decide
/-- The shortest frame that is not bare CRC bytes. -/
theorem witness_InboundCrcNeverRead : ([0x02] : Bytes) ≠ [] := by decide
theorem witness_FinalizePrefixesThenChecks :
    isIBlock [0x02, 0x6A, 0xD3] = true ∧ isIBlock [0x03, 0xE3, 0xC2] = true := by decide
theorem witness_UnknownPcbLeavesUnprefixed :
    wtxack.head? ≠ some 0x02 ∧ wtxack.head? ≠ some 0x03 ∧ wtxack.head? ≠ some 0x05 := by decide
/-- The three ranges of the units, at their ends. -/
theorem witness_WtxFrameIsWellShaped :
    (1 ≤ ({ tc1 with wtxUnits := 1 } : Cfg).wtxUnits ∧ ({ tc1 with wtxUnits := 1 } : Cfg).wtxUnits ≤ 59)
    ∧ (1 ≤ ({ tc1 with wtxUnits := 59 } : Cfg).wtxUnits ∧ ({ tc1 with wtxUnits := 59 } : Cfg).wtxUnits ≤ 59)
    ∧ ({ tc1 with wtxUnits := 0 } : Cfg).wtxUnits = 0
    ∧ 59 < ({ tc1 with wtxUnits := 60 } : Cfg).wtxUnits := by decide
theorem witness_AtqbCarriesUidUnderCrc :
    tc1.defaultUid.length = 4 ∧ tc1.atqbAppData.length = 4 := by decide
/-- A step that logs the fatal error, and one that logs an error that is not. -/
theorem witness_ErrorCodesAreNumbered :
    (∃ t, step { idle with inputs := [.phyFail] } = .next t
      ∧ .log (.error .phyEncodeFail) ∈ newOutputs { idle with inputs := [.phyFail] } t)
    ∧ (∃ t, step { idle with inputs := [.rx [0x02]] } = .next t
      ∧ .log (.error (.unrecognized [0x02] .unknown .idle)) ∈ newOutputs { idle with inputs := [.rx [0x02]] } t) :=
  ⟨⟨_, rfl, by decide +kernel⟩, _, rfl, by decide +kernel⟩
theorem witness_FieldOnEntersIdle :
    (fresh.run = .running ∧ fresh.cardState = .noField)
    ∧ (halted.run = .running ∧ halted.cardState ≠ .noField) := by decide
theorem witness_WupbSendsAtqb :
    (halted.run = .running ∧ (halted.cardState = .idle ∨ halted.cardState = .halted)
      ∧ halted.active = false)
    ∧ ((opened 0 .invalid).run = .running
      ∧ ((opened 0 .invalid).cardState = .idle ∨ (opened 0 .invalid).cardState = .halted)
      ∧ (opened 0 .invalid).active = true) := by decide
theorem witness_ReqbSendsAtqb :
    (idle.run = .running ∧ idle.cardState = .idle ∧ idle.active = false)
    ∧ (halted.run = .running ∧ halted.cardState = .halted)
    ∧ ((opened 0 .invalid).run = .running ∧ (opened 0 .invalid).cardState = .idle
      ∧ (opened 0 .invalid).active = true) := by decide
theorem witness_AttribSendsOk :
    (idle.run = .running ∧ idle.active = false ∧ idle.cardState = .idle)
    ∧ (halted.run = .running ∧ halted.active = false ∧ halted.cardState = .halted) := by decide
theorem witness_AttribShapedSelectFallsThrough :
    let s : State := opened 0 .invalid
    s.run = .running ∧ s.cardState = .idle ∧ s.active = true
      ∧ fileAt s.cfg (0x20, 0x00) = some (1, ⟨[0x20, 0x00], [0xAA, 0x02, 0x90, 0x00],
        [[0x03, 0x33, 0x90, 0x00], [0x04, 0x44, 0x90, 0x00], [0x05, 0x55, 0x90, 0x00]]⟩) := by decide
theorem witness_ResetClearsFileContext :
    ((opened 0 .invalid).run = .running ∧ (opened 0 .invalid).cardState = .idle)
    ∧ (halted.run = .running ∧ halted.cardState = .halted)
    ∧ (fresh.run = .running ∧ fresh.cardState = .noField)
    ∧ (waiting.run = .running ∧ waiting.cardState = .handleWtx) := by decide
theorem witness_WtxackOnlyRecorded :
    (waiting.run = .running ∧ waiting.cardState = .handleWtx)
    ∧ (fresh.run = .running ∧ fresh.cardState = .noField) := by decide
theorem witness_HaltHasNoTransition :
    waiting.run = .running ∧ waiting.cardState.stable = true := by decide
theorem witness_UnknownFrameOnlyLogged : halted.run = .running ∧ halted.cardState = .halted := by decide
theorem witness_FrameWithoutRowOnlyLogged :
    (fresh.run = .running ∧ fresh.cardState = .noField)
    ∧ (halted.run = .running ∧ halted.cardState = .halted
      ∧ ∀ r ∈ rows, rowPattern halted.cfg r reqb = true → rowGuard r halted = false) := by decide
/-- File 1, with file 0 before it in the table. -/
theorem witness_SelectOpensKnownFile :
    idle.run = .running ∧ (idle.cardState = .idle ∨ (idle.cardState = .halted ∧ idle.active = true))
      ∧ (∃ e, idle.cfg.fileTable[1]? = some e ∧ e.fid = [0x20, 0x00])
      ∧ (∀ j e', j < 1 → idle.cfg.fileTable[j]? = some e' → e'.fid ≠ [0x20, 0x00]) := by
  refine ⟨rfl, .inl rfl, ⟨_, rfl, rfl⟩, ?_⟩
  intro j e' hj he
  obtain rfl : j = 0 := by omega
  cases he
  decide
/-- The longest body without an id is four bytes, the shortest with one is five. -/
theorem witness_SelectMissesUnknownFile :
    idle.run = .running ∧ (idle.cardState = .idle ∨ (idle.cardState = .halted ∧ idle.active = true))
      ∧ ([0x00, 0x00, 0x01, 0x3F] : Bytes).length < 5
      ∧ ∀ e ∈ idle.cfg.fileTable, e.fid ≠ [0x99, 0x99] := by decide
/-- Record 1 of 2, with record 2 to follow. -/
theorem witness_ReadRecordSendsRecordDue_more :
    let s : State := opened 0 .awaitingFirst
    s.run = .running ∧ (s.cardState = .idle ∨ s.cardState = .halted) ∧ s.active = true
      ∧ s.fileContext.due = some 1 ∧ s.selFile = some 0
      ∧ ∃ e, s.cfg.fileTable[0]? = some e ∧ e.records[1 - 1]? = some [0x01, 0x11, 0x90, 0x00]
        ∧ 1 < e.records.length ∧ FileContext.awaiting (1 + 1) = some .awaitingSecond :=
  ⟨rfl, .inl rfl, rfl, rfl, rfl, _, rfl, rfl, by decide, rfl⟩
/-- Record 3 of 3. -/
theorem witness_ReadRecordSendsRecordDue_last :
    let s : State := opened 1 .awaitingThird
    s.run = .running ∧ (s.cardState = .idle ∨ s.cardState = .halted) ∧ s.active = true
      ∧ s.fileContext.due = some 3 ∧ s.selFile = some 1
      ∧ ∃ e, s.cfg.fileTable[1]? = some e ∧ e.records[3 - 1]? = some [0x05, 0x55, 0x90, 0x00]
        ∧ 3 = e.records.length :=
  ⟨rfl, .inl rfl, rfl, rfl, rfl, _, rfl, rfl, rfl⟩
/-- A file without records (V-A19). -/
theorem witness_ReadRecordSendsRecordDue_empty :
    let s : State := { opened 0 .awaitingFirst with cfg := { tc1 with fileTable := [⟨[0x3F, 0x04], [], []⟩] } }
    s.run = .running ∧ (s.cardState = .idle ∨ s.cardState = .halted) ∧ s.active = true
      ∧ s.fileContext.due = some 1 ∧ s.selFile = some 0
      ∧ ∃ e, s.cfg.fileTable[0]? = some e ∧ e.records.length < 1 :=
  ⟨rfl, .inl rfl, rfl, rfl, rfl, _, rfl, by decide⟩
theorem witness_ReadRecordSendsRecordDue_invalid :
    (missed.run = .running ∧ missed.cardState = .idle ∧ missed.active = true
      ∧ missed.fileContext = .invalid ∧ missed.selFile = none)
    ∧ ((opened 0 .invalid).run = .running ∧ (opened 0 .invalid).cardState = .idle
      ∧ (opened 0 .invalid).active = true ∧ (opened 0 .invalid).fileContext = .invalid
      ∧ (opened 0 .invalid).selFile ≠ none) := by decide
theorem witness_GetDataAnsweredFromTable :
    let s : State := opened 0 .awaitingFirst
    s.run = .running ∧ (s.cardState = .idle ∨ s.cardState = .halted) ∧ s.active = true
      ∧ (∃ g, s.cfg.getDataTable[0]? = some g ∧ g.apdu = 0x00 :: s.cfg.insGetData :: [0x00, 0x6E, 0x00])
      ∧ (∀ j' g', j' < 0 → s.cfg.getDataTable[j']? = some g' →
        g'.apdu ≠ 0x00 :: s.cfg.insGetData :: [0x00, 0x6E, 0x00]) :=
  ⟨rfl, .inl rfl, rfl, ⟨_, rfl, rfl⟩, fun _ _ h => absurd h (Nat.not_lt_zero _)⟩
theorem witness_IblockSubmitsToOracle :
    (opened 0 .invalid).run = .running
      ∧ ((opened 0 .invalid).cardState = .idle ∨ (opened 0 .invalid).cardState = .halted)
      ∧ (opened 0 .invalid).active = true := by decide
theorem witness_InactiveApdusOnlyLogged :
    (halted.run = .running ∧ halted.cardState = .halted ∧ halted.active = false)
    ∧ (idle.run = .running ∧ idle.cardState = .idle ∧ idle.active = false) := by decide
theorem witness_FramesIgnoredDuringWait :
    waiting.run = .running ∧ waiting.cardState = .handleWtx := by decide
theorem witness_WtxElapsedResends :
    (waiting.run = .running ∧ waiting.cardState = .handleWtx ∧ ∃ r, waiting.req = some r)
    ∧ (halted.run = .running ∧ halted.cardState = .halted) :=
  ⟨⟨rfl, rfl, _, rfl⟩, rfl, rfl⟩
theorem witness_OracleReplyAnswersReader :
    waiting.run = .running ∧ waiting.cardState = .handleWtx ∧ (∃ r, waiting.req = some r)
      ∧ waiting.lastIblock = some block ∧ isIBlock block = true ∧ ([0x90] : Bytes) ≠ [] :=
  ⟨rfl, rfl, ⟨_, rfl⟩, rfl, by decide, by decide⟩
theorem witness_EmptyReplyKeepsWaiting :
    waiting.run = .running ∧ waiting.cardState = .handleWtx ∧ ∃ r, waiting.req = some r :=
  ⟨rfl, rfl, _, rfl⟩
theorem witness_StrayReplyOnlyLogged :
    (fresh.run = .running ∧ fresh.req = none)
    ∧ (waiting.run = .running ∧ ∃ r, waiting.req = some r ∧ r.id ≠ 1) :=
  ⟨⟨rfl, rfl⟩, rfl, _, rfl, by decide⟩
/-- A wait meets R36. -/
theorem waiting_consistent (es : List Event) : Consistent { waiting with inputs := es } where
  stable := rfl
  activeContext _ := ⟨.inr rfl, by simp [waiting, opened]⟩
  waitRequest := ⟨fun _ => by simp [waiting], fun _ => rfl⟩
  requestBlock := ⟨fun _ => by simp [waiting], fun _ => by simp [waiting]⟩
  waitActive _ := rfl
  haltedInactive h := by cases h
  noFieldFresh h := by cases h
  recordDue n h := ⟨0, _, rfl, rfl, by cases h; decide⟩
  iblockKept b h := by cases h; decide
/-- The budget elapses; a reply comes; a frame comes. -/
theorem witness_WaitTransmitsOncePerDeadline :
    (∀ es, Consistent { waiting with inputs := es })
    ∧ waiting.run = .running ∧ waiting.cardState = .handleWtx
    ∧ (∃ t, step { waiting with inputs := [.wtxElapsed] } = .next t)
    ∧ (∃ t, step { waiting with inputs := [.oracleReply 0 [0x90]] } = .next t ∧ t.cardState = .idle)
    ∧ (∃ t, step { waiting with inputs := [.rx block] } = .next t) :=
  ⟨waiting_consistent, rfl, rfl, ⟨_, rfl⟩, ⟨_, rfl, rfl⟩, ⟨_, rfl⟩⟩
theorem witness_WaitTransmitsOncePerDeadline_enter :
    (opened 0 .invalid).cardState ≠ .handleWtx
      ∧ ∃ t, step { opened 0 .invalid with inputs := [.rx block] } = .next t
        ∧ t.cardState = .handleWtx :=
  ⟨by decide, _, rfl, rfl⟩
theorem witness_RetainedBlockNotOverwritten :
    Consistent { waiting with inputs := [.rx block] } ∧ waiting.req ≠ none
      ∧ ∃ t, step { waiting with inputs := [.rx block] } = .next t :=
  ⟨waiting_consistent _, by decide, _, rfl⟩
theorem witness_TerminationSetsReason : waiting.run = .running := rfl
theorem witness_OnlyTerminatingEventsEndRun :
    idle.run = .running ∧ ∃ t, step { idle with inputs := [.abort .host] } = .next t
      ∧ t.run = .terminated .abortHost := ⟨rfl, _, rfl, rfl⟩
theorem witness_SessionCreationOutcomes :
    cfgWf { tc1 with hostUid := some [0x11, 0x22, 0x33] } = false
    ∧ cfgWf { tc1 with hostUid := some [0xC3, 0xF7, 0x0B, 0xF7] } = true := by decide +kernel
/-- A table with a file of three records is admitted; one configuration for each way of failing is not. -/
theorem witness_IllFormedConfigurationRefused :
    cfgWf { tc1 with hostUid := some [0x11, 0x22, 0x33, 0x44] } = true
    ∧ (∃ e ∈ tc1.fileTable, e.records.length = 3)
    ∧ cfgWf { tc1 with hostUid := some [0x11, 0x22, 0x33] } = false
    ∧ cfgWf { tc1 with defaultUid := [] } = false
    ∧ cfgWf { tc1 with atqbAppData := List.replicate 5 0x00 } = false
    ∧ cfgWf { tc1 with fileTable := [⟨[0x3F, 0x04], [], [[], [], [], []]⟩] } = false
    ∧ cfgWf { tc1 with fileTable := ⟨[0x3F], [], []⟩ :: tc1.fileTable } = false
    ∧ cfgWf { tc1 with fileTable := [⟨[0x20, 0x00], [], []⟩] } = false
    ∧ cfgWf { tc1 with fileTable := ⟨[0x20, 0x00], [], []⟩ :: tc1.fileTable } = false := by
  decide +kernel
theorem witness_CreatedSessionMeetsInvariant : ∃ s, initSession tc1 none true true = some s :=
  ⟨_, rfl⟩
/-- A wait meets the whole invariant of a session. -/
theorem waiting_sessionInv (es : List Event) : SessionInv { waiting with inputs := es } where
  consistent := waiting_consistent es
  fixed := ⟨show cfgWf tc1 = true by decide +kernel, rfl, fun _ => rfl⟩
  matching := ⟨fun r b hr hb => by cases hr; cases hb; decide, fun r hr => by cases hr; rfl⟩
theorem witness_StepKeepsConsistent :
    Consistent { waiting with inputs := [.oracleReply 0 [0x90]] }
      ∧ ∃ t, step { waiting with inputs := [.oracleReply 0 [0x90]] } = .next t :=
  ⟨waiting_consistent _, _, rfl⟩
theorem witness_StepKeepsSessionInvariant :
    SessionInv { waiting with inputs := [.oracleReply 0 [0x90]] }
      ∧ ∃ t, step { waiting with inputs := [.oracleReply 0 [0x90]] } = .next t :=
  ⟨waiting_sessionInv _, _, rfl⟩
theorem witness_SessionStepAlwaysCompletes : SessionInv { waiting with inputs := [.wtxElapsed] } :=
  waiting_sessionInv _
/-- A step of a session that transmits. -/
theorem witness_TransmittedFramesCarryCrc :
    SessionInv { waiting with inputs := [.wtxElapsed] }
      ∧ ∃ t, step { waiting with inputs := [.wtxElapsed] } = .next t
        ∧ Output.tx (wtxFrame tc1) .fresh ∈ newOutputs { waiting with inputs := [.wtxElapsed] } t := by
  refine ⟨waiting_sessionInv _, _, rfl, ?_⟩
  simp [newOutputs, waiting, opened, idle, fresh, State.session, State.txFresh, State.emit,
    State.logError, State.log]
theorem witness_UnknownPcbNeverLogged :
    SessionInv { waiting with inputs := [.rx block] }
      ∧ ∃ t, step { waiting with inputs := [.rx block] } = .next t :=
  ⟨waiting_sessionInv _, _, rfl⟩
theorem witness_SessionConstantsNeverWritten : ∃ t, exec (.reset 0x14 0x3A) (opened 0 .invalid) = .next t := ⟨_, rfl⟩
theorem witness_CachedFramesArePrepared :
    ∃ t, step { idle with inputs := [.rx wupb] } = .next t
      ∧ Output.tx idle.prep.atqb (.cached .atqb) ∈ newOutputs { idle with inputs := [.rx wupb] } t := by
  refine ⟨_, rfl, ?_⟩
  simp [newOutputs, idle, fresh, State.session, wupbRule, State.txCached, State.emit, State.log,
    State.enter]
theorem witness_NoFieldLeftOnlyByField :
    (idle.cardState ≠ .noField ∧ ∃ t, step { idle with inputs := [.fieldOn] } = .next t)
    ∧ (fresh.cardState = .noField ∧ ∃ t, step { fresh with inputs := [.fieldOn] } = .next t
      ∧ t.cardState ≠ .noField) :=
  ⟨⟨by decide, _, rfl⟩, rfl, _, rfl, by decide⟩
theorem witness_ActiveHasTwoWriters :
    (idle.active = false ∧ ∃ t, step { idle with inputs := [.rx select0] } = .next t ∧ t.active = true)
    ∧ ((opened 0 .invalid).active = true
      ∧ ∃ t, step { opened 0 .invalid with inputs := [.rx reset] } = .next t ∧ t.active = false) :=
  ⟨⟨rfl, _, rfl, rfl⟩, rfl, _, rfl, rfl⟩
theorem witness_OutputsNeverReadBack :
    ∃ t, exec (.wupb 0x00 0x08 0x39 0x73) { idle with outs := [] } = .next t := ⟨_, rfl⟩
/-- One instruction that writes the register and one that does not. -/
theorem witness_LastNsNeverRead :
    (∃ t, exec (.select 1 0x00 [] 0x00 0x00) idle = .next t ∧ t.lastNs ≠ idle.lastNs)
    ∧ (∃ t, exec (.wupb 0x00 0x08 0x39 0x73) idle = .next t ∧ t.lastNs = idle.lastNs) :=
  ⟨⟨_, rfl, by decide⟩, _, rfl, rfl⟩

end Sys2Proof.Tests
end

section
/-! SUPPORT. Delivered events and their instructions, what an event's effect does to each group of
registers, and the invariants that every step keeps (R36, R25 to R33). -/

namespace Sys2Proof.Proofs

open Sys2Proof Sys2Proof.Machine

/-! ### Delivered events and the instructions they stand for -/

/-- An I-block with an INS is rebuilt from the fields its instruction keeps (R60). -/
theorem iFrame_rebuild_ins {f : Bytes} {x : Byte} (hi : isIBlock f = true)
    (hx : ins? f = some x) :
    iFrame (nsOf f) (byteAt f 1 :: x :: bodyOf f) (crcByte0 f) (crcByte1 f) = f := by
  obtain ⟨h5, rfl⟩ := ins_some hx
  rw [← apdu_eq f h5, iFrame_rebuild f hi]

/-- R64: a received frame is rebuilt from the fields of its instruction. -/
theorem encode_decodeFrame (c : Cfg) (f : Bytes) : encode c (decodeFrame c f) = .rx f := by
  by_cases hu : classify c f = .unknown
  · simp only [decodeFrame, hu, encode]
  have hp := rowPattern_of_classify rfl hu
  unfold decodeFrame
  cases hc : classify c f <;> rw [hc] at hp <;>
    simp only [rowPattern, patWupb, patReqb, patAttrib, patReset, patWtxack, patHalt, patSelect,
      patRead, patGetData, patIblock, Bool.and_eq_true, beq_iff_eq] at hp
  case wupb =>
    obtain ⟨⟨hl, h0⟩, -⟩ := hp
    match f, hl with
    | [_, _, _, _, _], _ => simpa [encode, wupbFrame, byteAt] using h0.symm
  case reqb =>
    obtain ⟨⟨hl, h0⟩, -⟩ := hp
    match f, hl with
    | [_, _, _, _, _], _ => simpa [encode, reqbFrame, byteAt] using h0.symm
  case attrib =>
    match f, hp.1 with
    | _ :: _, _ => simp [encode, attribFrame, byteAt]
  case reset =>
    match f, hp.1 with
    | [_, _, _], _ => simpa [encode, resetFrame, byteAt] using hp.2.symm
  case wtxack =>
    match f, hp.1 with
    | [_, _, _, _], _ => simpa [encode, wtxackFrame, byteAt] using hp.2.symm
  case halt =>
    match f, hp.1 with
    | [_, _, _, _, _, _, _], _ => simpa [encode, haltFrame, uidBytes, byteAt] using hp.2.symm
  case select => exact congrArg Event.rx (iFrame_rebuild_ins hp.1 hp.2)
  case readRecord => exact congrArg Event.rx (iFrame_rebuild_ins hp.1 hp.2)
  case getData =>
    obtain ⟨⟨hi, hx⟩, -⟩ := hp
    exact congrArg Event.rx (iFrame_rebuild_ins hi hx)
  case iblock => exact congrArg Event.rx (iFrame_rebuild f hp)
  case unknown => exact absurd hc hu

/-- R52, R64: an event is rebuilt from its instruction. -/
theorem encode_decode (c : Cfg) (e : Event) : encode c (decode c e) = e := by
  cases e with
  | rx f => exact encode_decodeFrame c f
  | _ => rfl

/-- A step that takes an event has that event's effect on the state without it. -/
theorem step_effect_of_event {s t : State} (h : step s = .next t) :
    t = s ∨ ∃ e es, s.inputs = e :: es ∧ Effect e { s with inputs := es } t := by
  obtain ⟨-, rfl⟩ | ⟨e, es, d, hi, -, rfl, he⟩ := step_effect h
  · exact .inl rfl
  · exact .inr ⟨e, es, hi, by rwa [encode_decode] at he⟩

/-! ### What an effect does to each group of registers -/

/-- R107, by register: the wait ends, and `respond` reaches `last_ns` and the outputs only. -/
theorem replyRule_frame (id : Ident) (p b : Bytes) (s : State) :
    ∃ n os, replyRule id p b s = { s with
      req := none, lastIblock := none, cardState := .idle, lastNs := n, outs := os } := by
  obtain ⟨n, h⟩ := respond_frame (((((s.log (.reply id p)).setReq none).setLastIblock none).enter
    .idle).log (.trans [.handleWtx, .idle])) (rawEntry p) b
  exact ⟨n, _, h⟩

/-- R29, R25, R33: no effect reaches the registers fixed at creation. -/
theorem effect_constants {e : Event} {s t : State} (h : Effect e s t) :
    t.cfg = s.cfg ∧ t.uidOverride = s.uidOverride ∧ t.prep = s.prep := by
  cases h with
  | reply id p b =>
    obtain ⟨n, os, h⟩ := replyRule_frame id p b s
    simp [h]
  | _ => exact ⟨rfl, rfl, rfl⟩

/-- R113: an effect leaves `run` alone, or is a terminating event's and ends a running machine for that
event's reason. -/
theorem effect_run {e : Event} {s t : State} (h : Effect e s t) :
    t.run = s.run ∨ ∃ r, s.run = .running ∧ t.run = .terminated r ∧
      ((e = .abort .button ∧ r = .abortButton) ∨ (e = .abort .host ∧ r = .abortHost)
        ∨ (e = .noFieldTimeout ∧ r = .noFieldTimeout) ∨ (e = .phyFail ∧ r = .phyFail)) := by
  cases h with
  | reply id p b =>
    obtain ⟨n, os, h⟩ := replyRule_frame id p b s
    simp [h]
  | exit _ reason os _ hr hos he => exact .inr ⟨reason, hr, rfl, he⟩
  | _ => exact .inl rfl

/-- R21: an effect leaves `active` alone, clears it on a RESET, or sets it on a SELECT of a known
file. -/
theorem effect_active {e : Event} {s t : State} (h : Effect e s t) :
    t.active = s.active
    ∨ (t.active = false ∧ ∃ f, e = .rx f ∧ patReset f = true)
    ∨ (t.active = true ∧ ∃ f id, e = .rx f ∧ patSelect s.cfg f = true ∧ fid? f = some id
      ∧ (findFile s.cfg id).isSome = true) := by
  cases h with
  | reply id p b =>
    obtain ⟨n, os, h⟩ := replyRule_frame id p b s
    simp [h]
  | reset f _ hc hp => exact .inr (.inl ⟨rfl, f, rfl, hp⟩)
  | selectHit f cls id k fe _ hc hp hf hk =>
    obtain ⟨j, hj, -⟩ := Option.bind_eq_some_iff.mp hk
    exact .inr (.inr ⟨rfl, f, id, rfl, hp, hf, by simp [hj]⟩)
  | _ => exact .inl rfl

/-- R27, R28: an effect keeps the request, the retained I-block and the id counter; or it leaves neither
request nor block; or it submits an I-block received in `Idle` or `Halted`. -/
theorem effect_request {e : Event} {s t : State} (h : Effect e s t) :
    (t.req = s.req ∧ t.lastIblock = s.lastIblock ∧ t.nextId = s.nextId)
    ∨ (t.req = none ∧ t.lastIblock = none)
    ∨ ((s.cardState = .idle ∨ s.cardState = .halted) ∧ ∃ f, t.req = some ⟨s.nextId, apdu f⟩
      ∧ t.lastIblock = some f ∧ t.nextId = s.nextId + 1) := by
  cases h with
  | reply id p b =>
    obtain ⟨n, os, h⟩ := replyRule_frame id p b s
    simp [h]
  | iblock f cls _ hc => exact .inr (.inr ⟨hc, f, rfl, rfl, rfl⟩)
  | _ => exact .inl ⟨rfl, rfl, rfl⟩

/-! ### R36 step by step -/

/-- R36 does not speak of `run`, the waiting events or the outputs. -/
theorem consistent_bookkeeping {s : State} (h : Consistent s) (r : RunStatus) (es : List Event)
    (os : List Output) : Consistent { s with run := r, inputs := es, outs := os } :=
  ⟨h.stable, h.activeContext, h.waitRequest, h.requestBlock, h.waitActive, h.haltedInactive,
    h.noFieldFresh, h.recordDue, h.iblockKept⟩

/-- Item 3 in `Idle` and `Halted`: nothing is outstanding and nothing is retained. -/
theorem consistent_no_request {s : State} (h : Consistent s)
    (hc : s.cardState = .idle ∨ s.cardState = .halted) : s.req = none ∧ s.lastIblock = none := by
  have hw : s.cardState ≠ .handleWtx := by rcases hc with hc | hc <;> simp [hc]
  have hreq : s.req = none := not_not.mp fun hr => hw (h.waitRequest.mpr hr)
  exact ⟨hreq, not_not.mp fun hb => h.requestBlock.mpr hb hreq⟩

/-- Item 5 of R36: a record that is due is one of the selected file, or the first of a file without
any. -/
def DueInTable (s : State) : Prop :=
  ∀ n, s.fileContext.due = some n →
    ∃ k e, s.selFile = some k ∧ s.cfg.fileTable[k]? = some e ∧ n ≤ max 1 e.records.length

/-- With no record due, item 5 asks nothing. -/
theorem dueInTable_of_none {s : State} (h : s.fileContext.due = none) : DueInTable s :=
  fun n hn => by simp [h] at hn

/-- R36 of a machine in `Idle`: what is left of its items there. -/
theorem consistent_of_idle {t : State} (hc : t.cardState = .idle)
    (hq : t.req = none ∧ t.lastIblock = none) (ha : t.active = true → t.fileContext ≠ .none)
    (hd : DueInTable t) :
    Consistent t where
  stable := by rw [hc]; rfl
  activeContext h := ⟨.inl hc, ha h⟩
  waitRequest := by simp [hc, hq.1]
  requestBlock := by simp [hq.1, hq.2]
  waitActive h := by simp [hc] at h
  haltedInactive h := by simp [hc] at h
  noFieldFresh h := by simp [hc] at h
  recordDue := hd
  iblockKept b hb := by simp [hq.2] at hb

/-- R36 of a deselected machine in `Halted`. -/
theorem consistent_of_halted {t : State} (hc : t.cardState = .halted) (ha : t.active = false)
    (hq : t.req = none ∧ t.lastIblock = none)
    (hd : DueInTable t) :
    Consistent t where
  stable := by rw [hc]; rfl
  activeContext h := by simp [ha] at h
  waitRequest := by simp [hc, hq.1]
  requestBlock := by simp [hq.1, hq.2]
  waitActive h := by simp [hc] at h
  haltedInactive _ := ha
  noFieldFresh h := by simp [hc] at h
  recordDue := hd
  iblockKept b hb := by simp [hq.2] at hb

/-- R101 starts a wait that meets R36: request and block are there, and the activation stays. -/
theorem consistent_of_wait {t : State} {r : Request} {b : Bytes} (hc : t.cardState = .handleWtx)
    (hr : t.req = some r) (hb : t.lastIblock = some b) (hi : isIBlock b = true)
    (ha : t.active = true) (hn : t.fileContext ≠ .none)
    (hd : DueInTable t) :
    Consistent t where
  stable := by rw [hc]; rfl
  activeContext _ := ⟨.inr hc, hn⟩
  waitRequest := by simp [hc, hr]
  requestBlock := by simp [hr, hb]
  waitActive _ := ha
  haltedInactive h := by simp [hc] at h
  noFieldFresh h := by simp [hc] at h
  recordDue := hd
  iblockKept b' hb' := by
    obtain rfl : b = b' := Option.some.inj (hb.symm.trans hb')
    simpa [isIBlock] using hi

/-- `Awaiting(n)` is a context in which record `n` is due (R22, R99). -/
theorem awaiting_due {n : Nat} {ctx : FileContext} (h : FileContext.awaiting n = some ctx) :
    ctx.due = some n := by
  unfold FileContext.awaiting at h
  split at h <;> cases h <;> rfl

/-- R36: every effect keeps the invariants of the registers. -/
theorem effect_keeps_consistent {e : Event} {s t : State} (he : Effect e s t) (h : Consistent s) :
    Consistent t := by
  have hctx : s.active = true → s.fileContext ≠ .none := fun ha => (h.activeContext ha).2
  have hq := fun hc => consistent_no_request h hc
  cases he with
  | same => exact h
  | frameLogged | replyLogged | elapsed | exit => exact consistent_bookkeeping h _ _ _
  | fieldOn _ hc =>
    obtain ⟨-, -, -, -, hblk, hreq, -⟩ := h.noFieldFresh hc
    exact consistent_of_idle rfl ⟨hreq, hblk⟩ hctx h.recordDue
  | atqb f cls path _ ha hc =>
    exact consistent_of_idle rfl (hq hc) hctx h.recordDue
  | ok f path _ ha hc =>
    exact consistent_of_halted rfl ha (hq (.inl hc)) h.recordDue
  | reset f _ hc =>
    exact consistent_of_idle rfl (hq hc) nofun (dueInTable_of_none rfl)
  | selectHit f cls id k fe _ hc hp hf hk =>
    refine consistent_of_idle rfl (hq hc) (by simp) ?_
    rintro n ⟨⟩
    obtain ⟨j, -, hj⟩ := Option.bind_eq_some_iff.mp hk
    obtain ⟨fe', hfe, he⟩ := Option.map_eq_some_iff.mp hj
    cases he
    exact ⟨k, fe, rfl, hfe, Nat.le_max_left ..⟩
  | selectMiss f cls id _ hc =>
    exact consistent_of_idle rfl (hq hc) (by simp) (dueInTable_of_none rfl)
  | readRecord f cls p ctx _ hc ha hn hx =>
    rcases hx with rfl | ⟨-, rfl⟩ | ⟨n, k, fe, -, hk, hfe, hlt, hctx'⟩
    · exact consistent_of_idle rfl (hq hc) (by simp) (dueInTable_of_none rfl)
    · exact consistent_of_idle rfl (hq hc) hctx h.recordDue
    · have hd := awaiting_due hctx'
      refine consistent_of_idle rfl (hq hc) (fun _ => ?_) (fun m hm => ?_)
      · rintro rfl; cases hd
      · obtain rfl : n + 1 = m := Option.some.inj (hd.symm.trans hm)
        exact ⟨k, fe, hk, hfe, le_max_of_le_right hlt⟩
  | getData f cls g _ hc =>
    exact consistent_of_idle rfl (hq hc) hctx h.recordDue
  | iblock f cls _ hc ha hi => exact consistent_of_wait rfl rfl rfl hi ha (hctx ha) h.recordDue
  | reply id p b =>
    obtain ⟨n, os, heq⟩ := replyRule_frame id p b s
    rw [heq]
    exact consistent_of_idle rfl ⟨rfl, rfl⟩ hctx h.recordDue

/-- Settles O50: the invariants survive the taking of the event and then its effect. -/
theorem stepKeepsConsistent : Obligations.StepKeepsConsistent := by
  intro s t h hs
  obtain rfl | ⟨e, es, -, he⟩ := step_effect_of_event hs
  · exact h
  · exact effect_keeps_consistent he (consistent_bookkeeping h _ _ _)

/-! ### The invariant of a session -/

/-- R25, R29, R33: what creation fixes survives every effect, which writes none of it and never ends a
run as a failed PHY setup does. -/
theorem effect_keeps_fixed {e : Event} {s t : State} (he : Effect e s t) (h : SessionFixed s) :
    SessionFixed t := by
  obtain ⟨hcfg, huid, hprep⟩ := effect_constants he
  refine ⟨hcfg ▸ h.cfgOk, by rw [hcfg, huid, h.uid], fun ht => ?_⟩
  rw [hprep, hcfg, huid]
  refine h.prepared fun hs => ?_
  obtain hrun | ⟨r, hrun, -⟩ := effect_run he
  · exact ht (hrun.trans hs)
  · cases hs.symm.trans hrun

/-- R27, R28: an effect keeps the match of request and retained I-block. -/
theorem effect_keeps_matching {e : Event} {s t : State} (he : Effect e s t)
    (h : RequestMatches s) : RequestMatches t := by
  obtain ⟨hreq, hblk, hid⟩ | ⟨hreq, -⟩ | ⟨-, f, hreq, hblk, hid⟩ := effect_request he
  · exact ⟨by simpa [hreq, hblk] using h.payload, by simpa [hreq, hid] using h.latest⟩
  · exact ⟨by simp [hreq], by simp [hreq]⟩
  · exact ⟨by simp [hreq, hblk], by simp [hreq, hid]⟩

/-- The invariant of a session does not speak of the waiting events. -/
theorem sessionInv_inputs {s : State} (h : SessionInv s) (es : List Event) :
    SessionInv { s with inputs := es } :=
  ⟨consistent_bookkeeping h.consistent _ _ _, ⟨h.fixed.cfgOk, h.fixed.uid, h.fixed.prepared⟩,
    ⟨h.matching.payload, h.matching.latest⟩⟩

/-- Settles O51: each of the three parts survives the effect of the event taken. -/
theorem stepKeepsSessionInvariant : Obligations.StepKeepsSessionInvariant := by
  intro s t h hs
  obtain rfl | ⟨e, es, -, he⟩ := step_effect_of_event hs
  · exact h
  · have hi := sessionInv_inputs h es
    exact ⟨effect_keeps_consistent he hi.consistent, effect_keeps_fixed he hi.fixed,
      effect_keeps_matching he hi.matching⟩

/-- Settles O41: only an I-block received in `Idle` or `Halted` writes a new block, and there no request
is outstanding. -/
theorem retainedBlockNotOverwritten : Obligations.RetainedBlockNotOverwritten := by
  intro s t h hreq hs
  obtain rfl | ⟨e, es, -, he⟩ := step_effect_of_event hs
  · exact .inl ⟨rfl, rfl⟩
  · obtain ⟨hr, hb, -⟩ | ⟨hr, hb⟩ | ⟨hc, -⟩ := effect_request he
    · exact .inl ⟨hb, hr⟩
    · exact .inr ⟨hb, hr⟩
    · exact absurd (consistent_no_request h hc).1 hreq

/-- Settles O43, by the effect of the event taken on `run`. -/
theorem onlyTerminatingEventsEndRun : Obligations.OnlyTerminatingEventsEndRun := by
  intro s t r hr hs ht
  obtain rfl | ⟨e, es, hi, he⟩ := step_effect_of_event hs
  · cases hr.symm.trans ht
  · obtain hrun | ⟨r', -, hrun, hcause⟩ := effect_run he
    · cases hr.symm.trans (hrun.symm.trans ht)
    · cases hrun.symm.trans ht
      exact ⟨e, es, hi, hcause⟩

/-- Settles O52, by the effect of the instruction. -/
theorem sessionConstantsNeverWritten : Obligations.SessionConstantsNeverWritten :=
  fun _ _ _ h => effect_constants (exec_effect h)

/-- Settles O58, by the effect of the event taken on `active`. -/
theorem activeHasTwoWriters : Obligations.ActiveHasTwoWriters := by
  intro s t hs
  obtain rfl | ⟨e, es, hi, he⟩ := step_effect_of_event hs
  · exact ⟨fun h0 h1 => by simp [h0] at h1, fun h1 h0 => by simp [h0] at h1⟩
  · obtain heq | ⟨hoff, f, rfl, hp⟩ | ⟨hon, f, id, rfl, hp, hf, hk⟩ := effect_active he
    · exact ⟨fun h0 h1 => by simp [heq, h0] at h1, fun h1 h0 => by simp [heq, h1] at h0⟩
    · exact ⟨fun _ h1 => by simp [hoff] at h1, fun _ _ => ⟨f, es, hi, hp⟩⟩
    · exact ⟨fun _ _ => ⟨f, id, es, hi, hp, hf, hk⟩, fun _ h0 => by simp [hon] at h0⟩

end Sys2Proof.Proofs
end

section
/-! SUPPORT. Every step of a session completes (R43, R111, R120). -/

namespace Sys2Proof.Proofs

open Sys2Proof Sys2Proof.Machine

/-! ### Every step of a session completes -/

/-- The instruction or rule answers a next state: no fault and no refusal. -/
def Completes (r : Result) : Prop := ∃ t, r = .next t

theorem completes_next (t : State) : Completes (.next t) := ⟨t, rfl⟩

/-- R85, first line: a terminated machine absorbs the event, so only a running one matters. -/
theorem whenRunning_completes {s : State} {k : State → Result}
    (h : s.run = .running → Completes (k s)) : Completes (whenRunning s k) := by
  by_cases hr : s.run = .running
  · rw [whenRunning_running hr]; exact h hr
  · rw [whenRunning_terminated hr]; exact completes_next s

/-- R19, R85: from a stable state a frame's dispatch completes if its rows do in `Idle` and `Halted`. -/
theorem onFrame_completes {cls : FrameClass} {f : Bytes} {s : State} {k : State → Result}
    (hs : s.cardState.stable = true) (hk : Completes (k (s.emit (.log (.rx f cls s.cardState))))) :
    Completes (onFrame cls f s k) := by
  refine whenRunning_completes fun _ => ?_
  cases hc : s.cardState <;> rw [hc] at hs hk
  case noField | handleWtx => exact completes_next _
  case idle | halted => exact hk
  all_goals cases hs

/-- R95 item 2: an admitted file has at most three records. -/
theorem records_le_three {c : Cfg} (h : cfgWf c = true) {k : Nat} {e : FileEntry}
    (he : c.fileTable[k]? = some e) : e.records.length ≤ 3 := by
  simp only [cfgWf, Bool.and_eq_true, List.all_eq_true, decide_eq_true_eq] at h
  obtain ⟨⟨⟨⟨-, hfiles⟩, -⟩, -⟩, -⟩ := h
  exact (hfiles e (List.mem_of_getElem? he)).2

/-- R22: record numbers up to three have a context. -/
theorem awaiting_isSome {n : Nat} (h1 : 1 ≤ n) (h3 : n ≤ 3) :
    ∃ ctx, FileContext.awaiting n = some ctx := by
  interval_cases n <;> exact ⟨_, rfl⟩

/-- What READ RECORD needs of a session: a due record belongs to a selected file (R36 item 5), and an
admitted configuration bounds the records (R95 item 2). -/
structure ReadReady (s : State) : Prop where
  selected : ∀ n, s.fileContext.due = some n →
    ∃ k e, s.selFile = some k ∧ s.cfg.fileTable[k]? = some e
  bounded : ∀ (k : Nat) (e : FileEntry), s.cfg.fileTable[k]? = some e → e.records.length ≤ 3

theorem readReady_of_sessionInv {s : State} (h : SessionInv s) : ReadReady s where
  selected n hn := by
    obtain ⟨k, e, hk, he, -⟩ := h.consistent.recordDue n hn
    exact ⟨k, e, hk, he⟩
  bounded _ _ he := records_le_three h.fixed.cfgOk he

/-- Recording a frame leaves READ RECORD's registers alone. -/
theorem readReady_emit {s : State} (h : ReadReady s) (o : Output) : ReadReady (s.emit o) :=
  ⟨h.selected, h.bounded⟩

/-- R99 with a record due of a file of at most three. -/
theorem readDueRule_completes {n : Nat} {e : FileEntry} (he : e.records.length ≤ 3) (f : Bytes)
    (s : State) : Completes (readDueRule n e f s) := by
  unfold readDueRule
  split
  next => exact completes_next _
  next =>
    split
    next hlt =>
      obtain ⟨ctx, hctx⟩ := awaiting_isSome (n := n + 1) (by omega) (by omega)
      rw [hctx]
      exact completes_next _
    next => exact completes_next _

/-- R99 in a session. -/
theorem readRecordRule_completes {s : State} (h : ReadReady s) (f : Bytes) :
    Completes (readRecordRule f s) := by
  unfold readRecordRule
  cases hd : s.fileContext.due with
  | none => exact completes_next _
  | some n =>
    obtain ⟨k, e, hk, he⟩ := h.selected n hd
    simp only [hk, Option.bind_some, he]
    exact readDueRule_completes (h.bounded k e he) f s

/-- R65: every row's rule completes in a session, READ RECORD's being the only one that may not
elsewhere. -/
theorem rowRule_completes {s : State} (h : ReadReady s) (r cls : FrameClass) (f : Bytes) :
    Completes (rowRule r cls f s) := by
  cases r with
  | readRecord => exact readRecordRule_completes h f
  | _ => exact completes_next _

theorem firstRow_completes {s : State} (h : ReadReady s) (rs : List FrameClass) (cls : FrameClass)
    (f : Bytes) : Completes (firstRow rs cls f s) := by
  unfold firstRow
  split
  next r _ => exact rowRule_completes h r cls f
  next => exact completes_next _

/-- A choice between two rules that complete. -/
theorem ite_completes {c : Prop} [Decidable c] {r r' : Result} (h : Completes r)
    (h' : Completes r') : Completes (if c then r else r') := by
  split <;> assumption

/-- R107 to R109: a reply in a session is stray, empty or the answer, since request, wait and retained
block come together (R36 item 3). -/
theorem oracleReply_completes {s : State} (h : Consistent s) (id : Ident) (p : Bytes) :
    Completes (execOracleReply id p s) := by
  refine whenRunning_completes fun _ => ?_
  cases hr : s.req with
  | none => exact completes_next _
  | some r =>
    have hreq : s.req ≠ none := by simp [hr]
    obtain ⟨b, hb⟩ := Option.ne_none_iff_exists'.mp (h.requestBlock.mp hreq)
    simp only [h.waitRequest.mpr hreq, hb, not_true_eq_false, if_false, ne_eq]
    exact ite_completes (completes_next _) (ite_completes (completes_next _) (completes_next _))

/-- R105, R106: the budget elapses with a request outstanding, or outside a wait. -/
theorem wtxElapsed_completes {s : State} (h : Consistent s) : Completes (execWtxElapsed s) := by
  refine whenRunning_completes fun _ => ?_
  split
  next hw =>
    obtain ⟨r, hr⟩ := Option.ne_none_iff_exists'.mp (h.waitRequest.mp hw)
    rw [hr]
    exact completes_next _
  next => exact completes_next _

/-- R43, R111, R120: in a session every instruction completes. -/
theorem exec_completes {s : State} (h : SessionInv s) (i : Instr) : Completes (exec i s) := by
  have hs := h.consistent.stable
  have hrd := readReady_emit (readReady_of_sessionInv h)
  cases i with
  | wupb | reqb | iblock =>
    dsimp only [exec, execWupb, execReqb, execIblock]
    refine onFrame_completes hs ?_
    exact ite_completes (completes_next _) (completes_next _)
  | attrib | select | getData =>
    dsimp only [exec, execAttrib, execSelect, execGetData]
    refine onFrame_completes hs ?_
    exact ite_completes (completes_next _) (firstRow_completes (hrd _) _ _ _)
  | readRecord =>
    dsimp only [exec, execReadRecord]
    refine onFrame_completes hs ?_
    exact ite_completes (readRecordRule_completes (hrd _) _) (firstRow_completes (hrd _) _ _ _)
  | reset | wtxack | halt | unrecognised =>
    dsimp only [exec, execReset, execWtxack, execHalt, execUnrecognised]
    refine onFrame_completes hs ?_
    exact completes_next _
  | fieldOn =>
    dsimp only [exec, execFieldOn]
    refine whenRunning_completes fun _ => ?_
    exact ite_completes (completes_next _) (completes_next _)
  | rxNone | noFieldTimeout | abort | phyFail =>
    dsimp only [exec, execRxNone, execNoFieldTimeout, execAbort, execPhyFail]
    refine whenRunning_completes fun _ => ?_
    exact completes_next _
  | oracleReply id p => exact oracleReply_completes h.consistent id p
  | wtxElapsed => exact wtxElapsed_completes h.consistent

/-- Settles O53: the machine waits, or the instruction of the oldest event completes. -/
theorem sessionStepAlwaysCompletes : Obligations.SessionStepAlwaysCompletes := by
  intro s h
  unfold step State.takeEvent
  cases s.inputs with
  | nil => exact completes_next s
  | cons e es => exact exec_completes (sessionInv_inputs h es) _

end Sys2Proof.Proofs
end

section
/-! SUPPORT. `last_ns` is written and never read (R24). -/

namespace Sys2Proof.Proofs

open Sys2Proof Sys2Proof.Machine

/-! ### `last_ns` is written and never read -/

/-- How the answer `r'` of a rule may differ from its answer `r` when `last_ns`, which held `m`, holds `n`
instead: not at all, or only in that register, which the rule has not written. -/
def SameButNs (m n : Bit) (r r' : Result) : Prop :=
  r' = r ∨ ∃ t, r = .next t ∧ t.lastNs = m ∧ r' = .next (t.setLastNs n)

/-- Equal answers: those of a rule that writes `last_ns`, and a fault. -/
theorem sameButNs_refl (m n : Bit) (r : Result) : SameButNs m n r r := .inl rfl

/-- The answer of a rule that leaves `last_ns` alone. -/
theorem sameButNs_kept {m n : Bit} {t t' : State} (hm : t.lastNs = m) (ht : t' = t.setLastNs n) :
    SameButNs m n (.next t) (.next t') := .inr ⟨t, rfl, hm, congrArg _ ht⟩

theorem sameButNs_ite {c : Prop} [Decidable c] {m n : Bit} {a a' b b' : Result}
    (ha : SameButNs m n a a') (hb : SameButNs m n b b') :
    SameButNs m n (if c then a else b) (if c then a' else b') := by
  split <;> assumption

/-- R85, first line: the run check reads `run` only. -/
theorem whenRunning_sameButNs {s : State} {n : Bit} {k : State → Result}
    (h : SameButNs s.lastNs n (k s) (k (s.setLastNs n))) :
    SameButNs s.lastNs n (whenRunning s k) (whenRunning (s.setLastNs n) k) :=
  sameButNs_ite h (sameButNs_kept rfl rfl)

/-- R104: the wait reads the frame only. -/
theorem waitRule_sameButNs (cls : FrameClass) (f : Bytes) (s : State) (n : Bit) :
    SameButNs s.lastNs n (.next (waitRule cls f s)) (.next (waitRule cls f (s.setLastNs n))) := by
  unfold waitRule
  split <;> exact sameButNs_kept rfl rfl

/-- R85: the dispatch of a frame reads `last_ns` only if its rows do. -/
theorem onFrame_sameButNs {cls : FrameClass} {f : Bytes} {s : State} {n : Bit} {k : State → Result}
    (hk : ∀ s1 : State, SameButNs s1.lastNs n (k s1) (k (s1.setLastNs n))) :
    SameButNs s.lastNs n (onFrame cls f s k) (onFrame cls f (s.setLastNs n) k) := by
  refine whenRunning_sameButNs ?_
  simp only [setLastNs_cardState]
  split
  case h_1 => exact sameButNs_kept rfl rfl
  case h_2 => exact waitRule_sameButNs cls f (s.log _) n
  case h_3 | h_4 => exact hk (s.log (.rx f cls _))
  all_goals exact sameButNs_refl _ _ _

/-- R97, R98: a SELECT writes `last_ns` on both paths. -/
theorem selectRule_sameButNs {f : Bytes} (hi : isIBlock f = true) (s : State) (n : Bit) :
    SameButNs s.lastNs n (.next (selectRule f s)) (.next (selectRule f (s.setLastNs n))) := by
  refine .inl (congrArg _ ?_)
  unfold selectRule
  simp only [selectMissRule_eq _ _ _ hi, selectHitRule_eq _ _ _ _ _ hi]
  rfl

/-- R99: every answer of READ RECORD writes `last_ns`. -/
theorem readRecordAnswer_setLastNs {f : Bytes} (hi : isIBlock f = true) (p : Bytes)
    (ctx : FileContext) (s : State) (n : Bit) :
    readRecordAnswer (rawEntry p) ctx f (s.setLastNs n) = readRecordAnswer (rawEntry p) ctx f s := by
  rw [readRecordAnswer_eq _ _ _ _ hi, readRecordAnswer_eq _ _ _ _ hi]
  rfl

theorem readRecordRule_sameButNs {f : Bytes} (hi : isIBlock f = true) (s : State) (n : Bit) :
    SameButNs s.lastNs n (readRecordRule f s) (readRecordRule f (s.setLastNs n)) := by
  refine .inl ?_
  unfold readRecordRule readDueRule
  simp only [entryFnf, entryNmr, entryRec, ← apply_ite rawEntry, readRecordAnswer_setLastNs hi]
  rfl

/-- R100, R101: GET DATA's answer writes `last_ns`, and the delegated APDU leaves it alone. -/
theorem getDataRule_sameButNs {f : Bytes} (hi : isIBlock f = true) (s : State) (n : Bit) :
    SameButNs s.lastNs n (.next (getDataRule f s)) (.next (getDataRule f (s.setLastNs n))) := by
  unfold getDataRule
  simp only [setLastNs_cfg]
  split
  next g _ =>
    rw [getDataHitRule_eq _ _ _ hi, getDataHitRule_eq _ _ _ hi]
    exact sameButNs_refl _ _ _
  next => exact sameButNs_kept rfl rfl

/-- R65: no row reads `last_ns`; the rows that answer an APDU write it, for an I-block. -/
theorem rowRule_sameButNs {r : FrameClass} {c : Cfg} {f : Bytes} (hp : rowPattern c r f = true)
    (cls : FrameClass) (s : State) (n : Bit) :
    SameButNs s.lastNs n (rowRule r cls f s) (rowRule r cls f (s.setLastNs n)) := by
  cases r with
  | select => exact selectRule_sameButNs (isIBlock_of_rowPattern (by simp) hp) s n
  | readRecord => exact readRecordRule_sameButNs (isIBlock_of_rowPattern (by simp) hp) s n
  | getData => exact getDataRule_sameButNs (isIBlock_of_rowPattern (by simp) hp) s n
  | wupb | reqb | attrib | reset | iblock | wtxack | halt | unknown => exact sameButNs_kept rfl rfl

/-- R65: the guards of the table do not read `last_ns`. -/
theorem rowGuard_setLastNs (r : FrameClass) (s : State) (n : Bit) :
    rowGuard r (s.setLastNs n) = rowGuard r s := by
  cases r <;> rfl

theorem firstRow_sameButNs (rs : List FrameClass) (cls : FrameClass) (f : Bytes) (s : State)
    (n : Bit) :
    SameButNs s.lastNs n (firstRow rs cls f s) (firstRow rs cls f (s.setLastNs n)) := by
  unfold firstRow
  simp only [setLastNs_cfg, rowGuard_setLastNs]
  split
  next r hr =>
    have hpg := List.find?_some hr
    simp only [Bool.and_eq_true] at hpg
    exact rowRule_sameButNs hpg.1 cls s n
  next => exact sameButNs_kept rfl rfl

/-- R83, R107: the reply writes `last_ns` when the retained frame is an I-block, and never reads it. -/
theorem replyRule_sameButNs (id : Ident) (p b : Bytes) (s : State) (n : Bit) :
    SameButNs s.lastNs n (.next (replyRule id p b s)) (.next (replyRule id p b (s.setLastNs n))) := by
  unfold replyRule State.respond State.recordNs
  dsimp only
  split
  · exact sameButNs_refl _ _ _
  · exact sameButNs_kept rfl rfl

theorem oracleReply_sameButNs (id : Ident) (p : Bytes) (s : State) (n : Bit) :
    SameButNs s.lastNs n (execOracleReply id p s) (execOracleReply id p (s.setLastNs n)) := by
  refine whenRunning_sameButNs ?_
  simp only [setLastNs_req, setLastNs_cardState, setLastNs_lastIblock]
  cases s.req with
  | none => exact sameButNs_kept rfl rfl
  | some r =>
    refine sameButNs_ite (sameButNs_kept rfl rfl) (sameButNs_ite (sameButNs_refl _ _ _)
      (sameButNs_ite (sameButNs_kept rfl rfl) ?_))
    cases s.lastIblock with
    | none => exact sameButNs_refl _ _ _
    | some b => exact replyRule_sameButNs id p b s n

theorem wtxElapsed_sameButNs (s : State) (n : Bit) :
    SameButNs s.lastNs n (execWtxElapsed s) (execWtxElapsed (s.setLastNs n)) := by
  refine whenRunning_sameButNs (sameButNs_ite ?_ (sameButNs_kept rfl rfl))
  rw [setLastNs_req]
  cases s.req with
  | none => exact sameButNs_refl _ _ _
  | some r => exact sameButNs_kept rfl rfl

/-- R24: no instruction reads `last_ns`. -/
theorem exec_sameButNs (i : Instr) (s : State) (n : Bit) :
    SameButNs s.lastNs n (exec i s) (exec i (s.setLastNs n)) := by
  cases i with
  | wupb | reqb | iblock =>
    dsimp only [exec, execWupb, execReqb, execIblock]
    refine onFrame_sameButNs fun _ => ?_
    exact sameButNs_ite (sameButNs_kept rfl rfl) (sameButNs_kept rfl rfl)
  | attrib =>
    dsimp only [exec, execAttrib]
    refine onFrame_sameButNs fun s1 => ?_
    exact sameButNs_ite (sameButNs_kept rfl rfl) (firstRow_sameButNs _ _ _ s1 n)
  | reset | wtxack | halt | unrecognised =>
    dsimp only [exec, execReset, execWtxack, execHalt, execUnrecognised]
    refine onFrame_sameButNs fun _ => ?_
    exact sameButNs_kept rfl rfl
  | select =>
    dsimp only [exec, execSelect]
    refine onFrame_sameButNs fun s1 => sameButNs_ite ?_ (firstRow_sameButNs _ _ _ s1 n)
    exact selectRule_sameButNs (iFrame_isIBlock ..) s1 n
  | readRecord =>
    dsimp only [exec, execReadRecord]
    refine onFrame_sameButNs fun s1 => sameButNs_ite ?_ (firstRow_sameButNs _ _ _ s1 n)
    exact readRecordRule_sameButNs (iFrame_isIBlock ..) s1 n
  | getData =>
    dsimp only [exec, execGetData]
    refine onFrame_sameButNs fun s1 => sameButNs_ite ?_ (firstRow_sameButNs _ _ _ s1 n)
    exact getDataRule_sameButNs (iFrame_isIBlock ..) s1 n
  | fieldOn =>
    dsimp only [exec, execFieldOn]
    refine whenRunning_sameButNs ?_
    exact sameButNs_ite (sameButNs_kept rfl rfl) (sameButNs_kept rfl rfl)
  | rxNone | noFieldTimeout | abort | phyFail =>
    dsimp only [exec, execRxNone, execNoFieldTimeout, execAbort, execPhyFail]
    refine whenRunning_sameButNs ?_
    exact sameButNs_kept rfl rfl
  | oracleReply id p => exact oracleReply_sameButNs id p s n
  | wtxElapsed => exact wtxElapsed_sameButNs s n

/-- Settles O60: the two answers of an instruction are the same but for `last_ns`. -/
theorem lastNsNeverRead : Obligations.LastNsNeverRead := by
  intro i s t n h
  obtain heq | ⟨u, hu, hns, heq⟩ := exec_sameButNs i s n
  · exact .inl (heq.trans h)
  · cases hu.symm.trans h
    exact .inr ⟨hns, heq⟩

end Sys2Proof.Proofs
end

section
/-! SUPPORT. The session as created, and the ATQB (R126, R37, R80). -/

namespace Sys2Proof.Proofs

open Sys2Proof Sys2Proof.Machine

/-! ### The session as created -/

/-- R37: the registers of a new session meet R36, whatever `run`, the prepared frames and the outputs
are. -/
theorem session_consistent (c : Cfg) (u : Uid) (r : RunStatus) (p : Prep) (os : List Output) :
    Consistent { State.session c u with run := r, prep := p, outs := os } where
  stable := rfl
  activeContext h := by cases h
  waitRequest := by simp [State.session]
  requestBlock := by simp [State.session]
  waitActive h := by cases h
  haltedInactive _ := rfl
  noFieldFresh _ := ⟨rfl, rfl, rfl, rfl, rfl, rfl, rfl⟩
  recordDue _ h := by cases h
  iblockKept _ h := by cases h

/-- R126: a new session meets the whole invariant, its frames being prepared unless PHY setup failed. -/
theorem session_inv {c : Cfg} {u : Uid} {r : RunStatus} {p : Prep} (os : List Output)
    (hc : cfgWf c = true) (hu : sessionUid c = some u)
    (hp : r ≠ .terminated .phySetupFail → p = prepare c u) :
    SessionInv { State.session c u with run := r, prep := p, outs := os } where
  consistent := session_consistent c u r p os
  fixed := ⟨hc, hu, hp⟩
  matching := ⟨nofun, nofun⟩

/-- Settles O48: the reset configuration passes its check, and its UID is the default one. -/
theorem resetMeetsSessionInvariant : Obligations.ResetMeetsSessionInvariant :=
  session_inv [] (by decide) rfl fun _ => rfl

/-- Settles O49, by the three outcomes of R126. -/
theorem createdSessionMeetsInvariant : Obligations.CreatedSessionMeetsInvariant := by
  intro c h phyOk encodeOk s hs
  unfold initSession at hs
  dsimp only at hs
  split at hs
  next => cases hs
  next hwf =>
    split at hs
    next => cases hs
    next u hu =>
      have hc := eq_true_of_ne_false hwf
      split at hs
      next =>
        cases hs
        exact session_inv _ hc hu (absurd rfl)
      next =>
        split at hs
        next =>
          cases hs
          rw [phyFailure_eq]
          exact session_inv _ hc hu fun _ => rfl
        next =>
          cases hs
          exact session_inv _ hc hu fun _ => rfl

/-- Settles O44: each register by R37, and the identifier is the configuration's own. -/
theorem resetRegisterValues : Obligations.ResetRegisterValues :=
  ⟨rfl, rfl, rfl, rfl, rfl, rfl, rfl, rfl, rfl, rfl, rfl⟩

/-- R32: the ATQB template is `50`, the default UID in bytes 1..4, and the rest. -/
theorem entryAtqb_payload (c : Cfg) : (entryAtqb c).payload = 0x50 :: (c.defaultUid
    ++ (c.atqbAppData ++ [c.atqbBitRate, c.atqbMaxFrame, c.atqbFwi])) := by
  simp [entryAtqb]

/-- R80: with a default UID of four bytes, exactly those are replaced, and the CRC is over the result. -/
theorem atqbFrame_eq {c : Cfg} (h : c.defaultUid.length = 4) (u : Uid) :
    atqbFrame c u = crcFrame ([0x50, u.b0, u.b1, u.b2, u.b3] ++ c.atqbAppData
      ++ [c.atqbBitRate, c.atqbMaxFrame, c.atqbFwi]) := by
  simp only [atqbFrame, entryAtqb_payload, crcStep_raw]
  simp [uidBytes, h]

/-- Settles O16: the frame is R80's, of the lengths R95 gives its parts. -/
theorem atqbCarriesUidUnderCrc : Obligations.AtqbCarriesUidUnderCrc := by
  intro c u huid happ
  refine ⟨atqbFrame_eq huid u, ?_⟩
  rw [atqbFrame_eq huid, crcFrame_length]
  simp [happ]

end Sys2Proof.Proofs
end

section
/-! SUPPORT. The waiting events: no instruction reads or writes them, so the order in which the environment
delivers them is the order in which they are executed (R46, R114, R115). -/

namespace Sys2Proof.Proofs

open Sys2Proof Sys2Proof.Machine

/-! ### The waiting events are neither read nor written -/

/-- The state with these events waiting. -/
def setInputs (es : List Event) (s : State) : State := { s with inputs := es }

@[simp] theorem setInputs_cfg (es : List Event) (s : State) : (setInputs es s).cfg = s.cfg := rfl
@[simp] theorem setInputs_cardState (es : List Event) (s : State) :
    (setInputs es s).cardState = s.cardState := rfl
@[simp] theorem setInputs_fileContext (es : List Event) (s : State) :
    (setInputs es s).fileContext = s.fileContext := rfl
@[simp] theorem setInputs_selFile (es : List Event) (s : State) :
    (setInputs es s).selFile = s.selFile := rfl
@[simp] theorem setInputs_lastIblock (es : List Event) (s : State) :
    (setInputs es s).lastIblock = s.lastIblock := rfl
@[simp] theorem setInputs_req (es : List Event) (s : State) : (setInputs es s).req = s.req := rfl

/-! The register writes and outputs of the rules that end in a `respond` commute with `setInputs`. -/

@[simp] theorem setInputs_enter (es : List Event) (s : State) (v : CardState) :
    (setInputs es s).enter v = setInputs es (s.enter v) := rfl
@[simp] theorem setInputs_setActive (es : List Event) (s : State) (v : Bool) :
    (setInputs es s).setActive v = setInputs es (s.setActive v) := rfl
@[simp] theorem setInputs_setFileContext (es : List Event) (s : State) (v : FileContext) :
    (setInputs es s).setFileContext v = setInputs es (s.setFileContext v) := rfl
@[simp] theorem setInputs_setSelFile (es : List Event) (s : State) (v : Option Nat) :
    (setInputs es s).setSelFile v = setInputs es (s.setSelFile v) := rfl
@[simp] theorem setInputs_setLastIblock (es : List Event) (s : State) (v : Option Bytes) :
    (setInputs es s).setLastIblock v = setInputs es (s.setLastIblock v) := rfl
@[simp] theorem setInputs_setReq (es : List Event) (s : State) (v : Option Request) :
    (setInputs es s).setReq v = setInputs es (s.setReq v) := rfl
@[simp] theorem setInputs_emit (es : List Event) (s : State) (o : Output) :
    (setInputs es s).emit o = setInputs es (s.emit o) := rfl

/-- R82: the condition under which `respond` records N(S) is about the entry and the frame. -/
@[simp] theorem setInputs_respond (es : List Event) (s : State) (e : ResponseEntry) (f : Bytes) :
    (setInputs es s).respond e f = setInputs es (s.respond e f) := by
  unfold State.respond State.recordNs
  dsimp only
  split <;> rfl

/-- The answer with these events waiting in the next state, if there is one. -/
def withInputs (es : List Event) : Result → Result
  | .next t => .next (setInputs es t)
  | .fault r => .fault r
  | .refused r => .refused r

/-- A rule that neither reads nor writes the waiting events. -/
def InputsBlind (k : State → Result) : Prop :=
  ∀ (es : List Event) (s : State), k (setInputs es s) = withInputs es (k s)

theorem inputsBlind_next {g : State → State} (h : ∀ es s, g (setInputs es s) = setInputs es (g s)) :
    InputsBlind fun s => .next (g s) :=
  fun es s => congrArg _ (h es s)

theorem inputsBlind_ite {c : State → Prop} [∀ s, Decidable (c s)] {a b : State → Result}
    (hc : ∀ es s, c (setInputs es s) ↔ c s) (ha : InputsBlind a) (hb : InputsBlind b) :
    InputsBlind fun s => if c s then a s else b s := by
  intro es s
  simp only [hc es s, ha es s, hb es s, apply_ite (withInputs es)]

/-- R85, first line: the run check reads `run` only. -/
theorem inputsBlind_whenRunning {k : State → Result} (h : InputsBlind k) :
    InputsBlind fun s => whenRunning s k :=
  inputsBlind_ite (fun _ _ => Iff.rfl) h (inputsBlind_next fun _ _ => rfl)

/-- R104: the wait reads the frame only. -/
theorem inputsBlind_waitRule (cls : FrameClass) (f : Bytes) :
    InputsBlind fun s => .next (waitRule cls f s) := by
  refine inputsBlind_next fun es s => ?_
  unfold waitRule
  split <;> rfl

/-- R85: the dispatch of a frame is blind to the waiting events if its rows are. -/
theorem inputsBlind_onFrame {k : State → Result} (hk : InputsBlind k) (cls : FrameClass) (f : Bytes) :
    InputsBlind fun s => onFrame cls f s k := by
  refine inputsBlind_whenRunning fun es s => ?_
  simp only [setInputs_cardState]
  cases s.cardState with
  | noField => rfl
  | handleWtx => exact inputsBlind_waitRule cls f es (s.log _)
  | idle | halted => exact hk es (s.log _)
  | _ => rfl

/-- R97, R98. -/
theorem inputsBlind_selectRule (f : Bytes) : InputsBlind fun s => .next (selectRule f s) := by
  refine inputsBlind_next fun es s => ?_
  unfold selectRule
  cases fid? f with
  | none => simp [selectMissRule]
  | some id =>
    dsimp only [setInputs_cfg]
    cases fileAt s.cfg id with
    | none => simp [selectMissRule]
    | some ke => simp [selectHitRule]

theorem setInputs_readRecordAnswer (es : List Event) (e : ResponseEntry) (ctx : FileContext)
    (f : Bytes) (s : State) :
    readRecordAnswer e ctx f (setInputs es s) = setInputs es (readRecordAnswer e ctx f s) := by
  simp [readRecordAnswer]

/-- R99 with a record due. -/
theorem inputsBlind_readDueRule (n : Nat) (e : FileEntry) (f : Bytes) :
    InputsBlind (readDueRule n e f) := by
  intro es s
  unfold readDueRule
  simp only [setInputs_cfg, setInputs_readRecordAnswer]
  split
  · rfl
  · split
    · split <;> rfl
    · rfl

/-- R99. -/
theorem inputsBlind_readRecordRule (f : Bytes) : InputsBlind (readRecordRule f) := by
  intro es s
  unfold readRecordRule
  simp only [setInputs_cfg, setInputs_fileContext, setInputs_selFile, setInputs_readRecordAnswer]
  split
  · rfl
  · split
    · rfl
    · exact inputsBlind_readDueRule _ _ f es s

/-- R100, R101. -/
theorem inputsBlind_getDataRule (f : Bytes) : InputsBlind fun s => .next (getDataRule f s) := by
  refine inputsBlind_next fun es s => ?_
  unfold getDataRule
  dsimp only [setInputs_cfg]
  cases findGetData s.cfg (apdu f) with
  | none => rfl
  | some g => simp [getDataHitRule]

/-- R65: no row's rule reads or writes the waiting events. -/
theorem inputsBlind_rowRule (r cls : FrameClass) (f : Bytes) : InputsBlind (rowRule r cls f) := by
  cases r with
  | select => exact inputsBlind_selectRule f
  | readRecord => exact inputsBlind_readRecordRule f
  | getData => exact inputsBlind_getDataRule f
  | wupb | reqb | attrib | reset | wtxack | halt | iblock | unknown =>
    exact inputsBlind_next fun _ _ => rfl

/-- R65: the guards of the table do not read the waiting events. -/
theorem rowGuard_setInputs (r : FrameClass) (es : List Event) (s : State) :
    rowGuard r (setInputs es s) = rowGuard r s := by
  cases r <;> rfl

theorem inputsBlind_firstRow (rs : List FrameClass) (cls : FrameClass) (f : Bytes) :
    InputsBlind (firstRow rs cls f) := by
  intro es s
  unfold firstRow
  simp only [setInputs_cfg, rowGuard_setInputs]
  split
  next r _ => exact inputsBlind_rowRule r cls f es s
  next => rfl

/-- R107 to R109. -/
theorem inputsBlind_oracleReply (id : Ident) (p : Bytes) : InputsBlind (execOracleReply id p) := by
  refine inputsBlind_whenRunning fun es s => ?_
  simp only [setInputs_req, setInputs_cardState, setInputs_lastIblock]
  cases s.req with
  | none => rfl
  | some r =>
    simp only [apply_ite (withInputs es)]
    cases s.lastIblock with
    | none => rfl
    | some b => simp [replyRule, withInputs]

/-- R105, R106. -/
theorem inputsBlind_wtxElapsed : InputsBlind execWtxElapsed := by
  refine inputsBlind_whenRunning (inputsBlind_ite (fun _ _ => Iff.rfl) (fun es s => ?_)
    (inputsBlind_next fun _ _ => rfl))
  dsimp only [setInputs_req]
  cases s.req <;> rfl

/-- R114: no instruction reads or writes the waiting events. -/
theorem inputsBlind_exec (i : Instr) : InputsBlind (exec i) := by
  intro es s
  cases i with
  | wupb | reqb | iblock =>
    dsimp only [exec, execWupb, execReqb, execIblock]
    refine inputsBlind_onFrame ?_ _ _ es s
    exact inputsBlind_ite (fun _ _ => Iff.rfl) (inputsBlind_next fun _ _ => rfl)
      (inputsBlind_next fun _ _ => rfl)
  | attrib =>
    dsimp only [exec, execAttrib]
    refine inputsBlind_onFrame ?_ _ _ es s
    exact inputsBlind_ite (fun _ _ => Iff.rfl) (inputsBlind_next fun _ _ => rfl)
      (inputsBlind_firstRow _ _ _)
  | reset | wtxack | halt | unrecognised =>
    dsimp only [exec, execReset, execWtxack, execHalt, execUnrecognised]
    refine inputsBlind_onFrame ?_ _ _ es s
    exact inputsBlind_next fun _ _ => rfl
  | select =>
    dsimp only [exec, execSelect]
    refine inputsBlind_onFrame ?_ _ _ es s
    exact inputsBlind_ite (fun _ _ => Iff.rfl) (inputsBlind_selectRule _) (inputsBlind_firstRow _ _ _)
  | readRecord =>
    dsimp only [exec, execReadRecord]
    refine inputsBlind_onFrame ?_ _ _ es s
    exact inputsBlind_ite (fun _ _ => Iff.rfl) (inputsBlind_readRecordRule _)
      (inputsBlind_firstRow _ _ _)
  | getData =>
    dsimp only [exec, execGetData]
    refine inputsBlind_onFrame ?_ _ _ es s
    exact inputsBlind_ite (fun _ _ => Iff.rfl) (inputsBlind_getDataRule _) (inputsBlind_firstRow _ _ _)
  | fieldOn =>
    dsimp only [exec, execFieldOn]
    refine inputsBlind_whenRunning ?_ es s
    exact inputsBlind_ite (fun _ _ => Iff.rfl) (inputsBlind_next fun _ _ => rfl)
      (inputsBlind_next fun _ _ => rfl)
  | rxNone | noFieldTimeout | abort | phyFail =>
    dsimp only [exec, execRxNone, execNoFieldTimeout, execAbort, execPhyFail]
    refine inputsBlind_whenRunning ?_ es s
    exact inputsBlind_next fun _ _ => rfl
  | oracleReply id p => exact inputsBlind_oracleReply id p es s
  | wtxElapsed => exact inputsBlind_wtxElapsed es s

/-- A run whose first step completes goes on from the state that step answers. -/
theorem run_succ {M : Host.Core} {s u : M.State} (k : Nat) (h : M.step s = .next u) :
    M.run (k + 1) s = M.run k u := by
  simp only [Host.Core.run, h]

/-- R46, R115: one step with events waiting is the oldest event's instruction, run with none waiting. -/
theorem step_of_exec {e : Event} {es : List Event} {s t : State}
    (h : exec (decode s.cfg e) (setInputs [] s) = .next t) :
    step (setInputs (e :: es) s) = .next (setInputs es t) :=
  (inputsBlind_exec (decode s.cfg e) es (setInputs [] s)).trans (congrArg (withInputs es) h)

/-- An instruction leaves the waiting events as they are. -/
theorem exec_inputs {i : Instr} {s t : State} (h : exec i s = .next t) : t.inputs = s.inputs := by
  have hb := inputsBlind_exec i s.inputs s
  rw [show setInputs s.inputs s = s from rfl, h] at hb
  injection hb with hb
  exact (congrArg State.inputs hb :)

/-- Settles O3, by induction on the delivered events: each step runs the oldest of them, and the rest wait
meanwhile without any effect. -/
theorem eventsRunInArrivalOrder : Obligations.EventsRunInArrivalOrder := by
  intro es
  induction es with
  | nil =>
    intro s t h
    cases h
    exact ⟨rfl, rfl⟩
  | cons e es ih =>
    intro s t h
    unfold runEvents at h
    split at h
    next u hu =>
      have hin : setInputs [] u = u := congrArg (setInputs · u) (exec_inputs hu).symm
      obtain ⟨hrun, ht⟩ := ih u t (by rwa [← hin] at h)
      refine ⟨?_, ht⟩
      have hstep : step (setInputs (e :: es) s) = .next (setInputs es u) := step_of_exec hu
      calc core.run (es.length + 1) (setInputs (e :: es) s)
          = core.run es.length (setInputs es u) := run_succ (M := Sys2Proof.core) es.length hstep
        _ = .next t := hrun
    next => cases h
    next => cases h

end Sys2Proof.Proofs
end

section
/-! SUPPORT. The class of a frame against the formats that WellFormed writes out (R39, R64, R68). -/

namespace Sys2Proof.Proofs

open Sys2Proof Sys2Proof.Machine

/-! ### Every frame decodes to a well-formed instruction -/

/-- If the first match of a list, or a default, is `r`, then nothing before `r` matches. -/
theorem not_match_before {α : Type} [DecidableEq α] {p : α → Bool} {r d : α} :
    ∀ {l : List α}, (l.find? p).getD d = r → ∀ x ∈ l.takeWhile (· ≠ r), p x = false
  | [], _, x, hx => by simp at hx
  | a :: l, h, x, hx => by
    cases hp : p a with
    | true =>
      rw [List.find?_cons_of_pos hp] at h
      obtain rfl : a = r := h
      simp at hx
    | false =>
      rw [List.find?_cons_of_neg (by simp [hp])] at h
      by_cases ha : a = r
      · simp [ha] at hx
      · simp only [List.takeWhile_cons, ha, ne_eq, not_false_eq_true, decide_true, if_true,
          List.mem_cons] at hx
        rcases hx with rfl | hx
        · exact hp
        · exact not_match_before h x hx

/-- The rows before a class in the order of R64: all of them before `UNKNOWN`. -/
def rowsBefore (r : FrameClass) : List FrameClass := rows.takeWhile (· ≠ r)

/-- R64: no pattern of a row before a frame's class holds of the frame. -/
theorem rowPattern_before_classify {c : Cfg} {f : Bytes} {r r' : FrameClass}
    (h : classify c f = r) (hr : r' ∈ rowsBefore r) : rowPattern c r' f = false :=
  not_match_before h r' hr

/-- R60: an I-block has at least three bytes. -/
theorem three_le_of_isIBlock {f : Bytes} (h : isIBlock f = true) : 3 ≤ f.length := by
  simp only [isIBlock, Bool.and_eq_true, decide_eq_true_eq] at h
  exact h.1

/-- R60: PCB and two CRC bytes stand around an APDU. -/
theorem apdu_length {f : Bytes} (h : 3 ≤ f.length) : 3 + (apdu f).length = f.length := by
  simp only [apdu, slice, List.length_take, List.length_drop]
  omega

/-- R60: CLA and INS stand before the body. -/
theorem bodyOf_length {f : Bytes} (h : 5 ≤ f.length) : 5 + (bodyOf f).length = f.length := by
  simp only [bodyOf, slice, List.length_take, List.length_drop]
  omega

/-- R53: the PCB written from an I-block's N(S) is its first byte. -/
theorem iblockPcb_nsOf {f : Bytes} (h : isIBlock f = true) : iblockPcb (nsOf f) = byteAt f 0 := by
  have hpcb : ∀ ns : Bit, iblockPcb ns = pcbOf ns := by decide
  rw [hpcb, pcbOf_nsOf f h]

/-- R56: ATTRIB's pattern is ATTRIB's format. -/
theorem patAttrib_iff (c : Cfg) (f : Bytes) :
    patAttrib c f = true ↔ attribShaped c f.length (byteAt f 0) := by
  simp [patAttrib, attribShaped]

/-- R64: the length and the PCB of an I-block instruction are those of no ATTRIB. -/
theorem not_attribShaped {c : Cfg} {f : Bytes} {n : Nat} (hi : isIBlock f = true)
    (hn : n = f.length) (ha : patAttrib c f = false) :
    ¬ attribShaped c n (iblockPcb (nsOf f)) := by
  rw [hn, iblockPcb_nsOf hi, ← patAttrib_iff, ha]
  exact Bool.false_ne_true

/-- The key test of WellFormed is the lookup of R64. -/
theorem findGetData_isSome (c : Cfg) (a : Bytes) :
    (findGetData c a).isSome = c.getDataTable.any (fun g => g.apdu == a) := by
  rw [Bool.eq_iff_iff, findGetData, List.find?_isSome, List.any_eq_true]

/-- R64: the APDU of an I-block is claimed exactly when a pattern before IBLOCK's holds of the frame. -/
theorem claimedApdu_apdu {c : Cfg} {f : Bytes} (hi : isIBlock f = true) :
    claimedApdu c (apdu f) = (patSelect c f || patRead c f || patGetData c f) := by
  by_cases h5 : 5 ≤ f.length
  · simp [claimedApdu, patSelect, patRead, patGetData, hi, ins?, h5, findGetData_isSome, apdu_eq f h5]
  · have hlen := apdu_length (three_le_of_isIBlock hi)
    have hshort : claimedApdu c (apdu f) = false := by
      match h : apdu f with
      | [] | [_] => rfl
      | _ :: _ :: _ => rw [h] at hlen; simp at hlen; omega
    simp [hshort, patSelect, patRead, patGetData, ins?, h5]

/-- R55: bit 3 of PARAM tells WUPB from REQB. -/
theorem addressed_eq (f : Bytes) : addressed f = (byteAt f 2).getLsbD 3 := by
  have hbit : ∀ b : Byte, ((b &&& 0x08) != 0) = b.getLsbD 3 := by decide
  exact hbit _

/-- A frame that starts with a byte holds it at its front. -/
theorem byteAt_zero_of_head? {f : Bytes} {b : Byte} (h : f.head? = some b) : byteAt f 0 = b := by
  cases f with
  | nil => cases h
  | cons x g => exact Option.some.inj h

/-- R64, R67: a frame that no row's pattern fits has none of the formats. -/
theorem wellFormed_unrecognised {c : Cfg} {f : Bytes} (hlen : f.length ≤ c.maxFrame)
    (hno : ∀ r ∈ rows, rowPattern c r f = false) : WellFormed c (.unrecognised f) := by
  simp only [rows, List.forall_mem_cons, rowPattern] at hno
  obtain ⟨hwupb, hreqb, hattrib, hreset, hwtxack, hhalt, -, -, -, hiblock, -⟩ := hno
  simp only [WellFormed, wellFormed, decide_eq_true_eq]
  refine ⟨hlen, ?_, ?_, ?_, ?_, ?_, ?_⟩
  · rintro ⟨hl, h0⟩
    simp [patWupb, patReqb, hl, byteAt_zero_of_head? h0] at hwupb hreqb
    simp [hwupb] at hreqb
  · rintro ⟨hl, h0⟩
    have hshape : attribShaped c f.length (byteAt f 0) := by
      refine ⟨hl, h0.imp_right fun h => ?_⟩
      match f, hl with
      | _ :: _, _ => exact h
    simp [(patAttrib_iff c f).mpr hshape] at hattrib
  · rintro ⟨hl, h0⟩
    simp [patReset, hl, byteAt_zero_of_head? h0] at hreset
  · rintro ⟨hl, h0⟩
    simp [patWtxack, hl, byteAt_zero_of_head? h0] at hwtxack
  · rintro ⟨hl, h0⟩
    simp [patHalt, hl, byteAt_zero_of_head? h0] at hhalt
  · rintro ⟨hl, h0⟩
    have hpcb := h0.imp byteAt_zero_of_head? byteAt_zero_of_head?
    have hi : isIBlock f = true := by simpa [isIBlock, hl] using hpcb
    simp [patIblock, hi] at hiblock

/-! One lemma per class: its pattern, what R64 says of the rows before it, and the bound of R39. -/

theorem wellFormed_wupb {c : Cfg} {f : Bytes} (hlen : f.length ≤ c.maxFrame)
    (hp : patWupb f = true) (afi c0 c1 : Byte) : WellFormed c (.wupb afi (byteAt f 2) c0 c1) := by
  simp only [patWupb, addressed_eq, Bool.and_eq_true, beq_iff_eq] at hp
  obtain ⟨⟨hl, -⟩, hparam⟩ := hp
  simp only [WellFormed, wellFormed, hparam, Bool.true_and, decide_eq_true_eq]
  omega

theorem wellFormed_reqb {c : Cfg} {f : Bytes} (hlen : f.length ≤ c.maxFrame)
    (hp : patReqb f = true) (afi c0 c1 : Byte) : WellFormed c (.reqb afi (byteAt f 2) c0 c1) := by
  simp only [patReqb, addressed_eq, Bool.and_eq_true, beq_iff_eq] at hp
  obtain ⟨⟨hl, -⟩, hparam⟩ := hp
  simp only [WellFormed, wellFormed, hparam, Bool.true_and, decide_eq_true_eq]
  omega

theorem wellFormed_attrib {c : Cfg} {f : Bytes} (hlen : f.length ≤ c.maxFrame)
    (hp : patAttrib c f = true) : WellFormed c (.attrib (byteAt f 0) (f.drop 1)) := by
  obtain ⟨hl, hop⟩ := (patAttrib_iff c f).mp hp
  have hrest : 1 + (f.drop 1).length = 11 := by rw [List.length_drop]; omega
  exact decide_eq_true ⟨⟨hrest, hop⟩, hl ▸ hlen⟩

theorem wellFormed_select {c : Cfg} {f : Bytes} (hlen : f.length ≤ c.maxFrame)
    (hp : patSelect c f = true) (ha : patAttrib c f = false) (cla c0 c1 : Byte) :
    WellFormed c (.select (nsOf f) cla (bodyOf f) c0 c1) := by
  simp only [patSelect, Bool.and_eq_true, beq_iff_eq] at hp
  obtain ⟨hi, hins⟩ := hp
  have hbody := bodyOf_length (ins_some hins).1
  exact decide_eq_true ⟨not_attribShaped hi hbody ha, hbody ▸ hlen⟩

theorem wellFormed_readRecord {c : Cfg} {f : Bytes} (hlen : f.length ≤ c.maxFrame)
    (hp : patRead c f = true) (ha : patAttrib c f = false) (hs : patSelect c f = false)
    (cla c0 c1 : Byte) : WellFormed c (.readRecord (nsOf f) cla (bodyOf f) c0 c1) := by
  simp only [patRead, Bool.and_eq_true, beq_iff_eq] at hp
  obtain ⟨hi, hins⟩ := hp
  have hbody := bodyOf_length (ins_some hins).1
  have hne : c.insReadRecord ≠ c.insSelect := by simpa [patSelect, hi, hins] using hs
  exact decide_eq_true ⟨not_attribShaped hi hbody ha, hbody ▸ hlen, hne⟩

theorem wellFormed_getData {c : Cfg} {f : Bytes} (hlen : f.length ≤ c.maxFrame)
    (hp : patGetData c f = true) (ha : patAttrib c f = false) (hs : patSelect c f = false)
    (hr : patRead c f = false) (c0 c1 : Byte) :
    WellFormed c (.getData (nsOf f) (byteAt f 1) (bodyOf f) c0 c1) := by
  simp only [patGetData, Bool.and_eq_true, beq_iff_eq] at hp
  obtain ⟨⟨hi, hins⟩, hkey⟩ := hp
  obtain ⟨h5, hbyte⟩ := ins_some hins
  have hbody := bodyOf_length h5
  have hnes : c.insGetData ≠ c.insSelect := by simpa [patSelect, hi, hins] using hs
  have hner : c.insGetData ≠ c.insReadRecord := by simpa [patRead, hi, hins] using hr
  rw [findGetData_isSome, apdu_eq f h5, hbyte] at hkey
  exact Bool.and_eq_true_iff.mpr
    ⟨decide_eq_true ⟨not_attribShaped hi hbody ha, hbody ▸ hlen, hnes, hner⟩, hkey⟩

theorem wellFormed_iblock {c : Cfg} {f : Bytes} (hlen : f.length ≤ c.maxFrame)
    (hi : isIBlock f = true) (ha : patAttrib c f = false) (hs : patSelect c f = false)
    (hr : patRead c f = false) (hg : patGetData c f = false) (c0 c1 : Byte) :
    WellFormed c (.iblock (nsOf f) (apdu f) c0 c1) := by
  have hapdu := apdu_length (three_le_of_isIBlock hi)
  have hclaim : claimedApdu c (apdu f) = false := by simp [claimedApdu_apdu hi, hs, hr, hg]
  simp only [WellFormed, wellFormed, hclaim, Bool.not_false, Bool.and_true]
  exact decide_eq_true ⟨not_attribShaped hi hapdu ha, hapdu ▸ hlen⟩

/-- The classes of one fixed length need only that the bound admits it (R57 to R59). -/
theorem le_maxFrame_of_pat {f : Bytes} {n m : Nat} {b : Byte} (hlen : f.length ≤ m)
    (hp : (f.length == n && byteAt f 0 == b) = true) : decide (n ≤ m) = true := by
  simp only [Bool.and_eq_true, beq_iff_eq] at hp
  exact decide_eq_true (hp.1 ▸ hlen)

/-- Settles O8, by the class of the frame: its pattern holds, and the patterns of the rows before it
fail. -/
theorem everyFrameDecodesWellFormed : Obligations.EveryFrameDecodesWellFormed := by
  intro c f hlen
  have hbefore {r : FrameClass} := @rowPattern_before_classify c f _ r rfl
  have hpat := @rowPattern_of_classify c f _ rfl
  unfold decodeFrame
  cases hc : classify c f <;> rw [hc] at hbefore hpat
  case unknown => exact wellFormed_unrecognised hlen fun r hr => hbefore hr
  all_goals have hp := hpat nofun
  case wupb => exact wellFormed_wupb hlen hp _ _ _
  case reqb => exact wellFormed_reqb hlen hp _ _ _
  case attrib => exact wellFormed_attrib hlen hp
  case reset | wtxack | halt => exact le_maxFrame_of_pat hlen hp
  all_goals have ha : patAttrib c f = false := hbefore (r := .attrib) (by decide)
  case select => exact wellFormed_select hlen hp ha _ _ _
  all_goals have hs : patSelect c f = false := hbefore (r := .select) (by decide)
  case readRecord => exact wellFormed_readRecord hlen hp ha hs _ _ _
  all_goals have hr : patRead c f = false := hbefore (r := .readRecord) (by decide)
  case getData => exact wellFormed_getData hlen hp ha hs hr _ _
  case iblock => exact wellFormed_iblock hlen hp ha hs hr (hbefore (r := .getData) (by decide)) _ _

end Sys2Proof.Proofs
end

section
/-! SUPPORT. The outputs a step appends (R12), and the frames it sends from cached buffers (R50). -/

namespace Sys2Proof.Proofs

open Sys2Proof Sys2Proof.Machine

/-! ### The outputs a step appends -/

/-- `t` has the outputs of `s`, and after them only outputs with this property. -/
def Appends (P : Output → Prop) (s t : State) : Prop :=
  ∃ os, t.outs = s.outs ++ os ∧ ∀ o ∈ os, P o

theorem appends_refl (P : Output → Prop) (s : State) : Appends P s s := ⟨[], by simp, by simp⟩

/-- The new outputs of a step are those it appends. -/
theorem newOutputs_of_appends {P : Output → Prop} {s t : State} (h : Appends P s t) :
    ∀ o ∈ newOutputs s t, P o := by
  obtain ⟨os, hos, hP⟩ := h
  simpa [newOutputs, hos] using hP

/-- R107, by output: the reply is recorded, the wait ends, and `respond` adds its own. -/
theorem replyRule_outs (id : Ident) (p b : Bytes) (s : State) :
    (replyRule id p b s).outs = s.outs ++ ([.log (.reply id p), .log (.trans [.handleWtx, .idle])]
      ++ ((finalize (rawEntry p) b).2 ++ [.tx (finalize (rawEntry p) b).1.payload .fresh])) := by
  obtain ⟨n, h⟩ := respond_frame (((((s.log (.reply id p)).setReq none).setLastIblock none).enter
    .idle).log (.trans [.handleWtx, .idle])) (rawEntry p) b
  rw [replyRule, h]
  simp

/-- R75: all the codec ever emits is a log entry. -/
theorem finalize_logs (e : ResponseEntry) (f : Bytes) :
    ∀ o ∈ (finalize e f).2, ∃ l, o = .log l := by
  unfold finalize pcbStep
  split
  · simp
  · split <;> simp

/-! ### Cached frames -/

/-- R50: what an effect sends from a cached buffer is the frame prepared under that name. -/
theorem effect_cachedOk {e : Event} {s t : State} (h : Effect e s t) :
    Appends (fun o => cachedOk s.prep o = true) s t := by
  cases h with
  | same => exact appends_refl _ _
  | frameLogged f cls os _ hos => exact ⟨_, rfl, by rcases hos with rfl | rfl <;> simp [cachedOk]⟩
  | reply id p b =>
    refine ⟨_, replyRule_outs id p b s, ?_⟩
    simp only [List.forall_mem_append]
    refine ⟨by simp [cachedOk], fun o ho => ?_, by simp [cachedOk]⟩
    obtain ⟨l, rfl⟩ := finalize_logs _ _ o ho
    rfl
  | exit _ reason os _ hr hos => exact ⟨_, rfl, by rcases hos with rfl | rfl <;> simp [cachedOk]⟩
  | _ => exact ⟨_, rfl, by simp [cachedOk]⟩

/-- Settles O55, by the effect of the event taken; the waiting events are no part of the outputs. -/
theorem cachedFramesArePrepared : Obligations.CachedFramesArePrepared := by
  intro s t hs
  obtain rfl | ⟨e, es, -, he⟩ := step_effect_of_event hs
  · exact newOutputs_of_appends (appends_refl _ _)
  · exact newOutputs_of_appends (s := { s with inputs := es }) (effect_cachedOk he)

end Sys2Proof.Proofs
end

section
/-! SUPPORT. A frame written from an instruction's format has the instruction's class, and its fields are
read back (R55 to R61, R64). -/

namespace Sys2Proof.Proofs

open Sys2Proof Sys2Proof.Machine

/-! ### Encoding and decoding -/

/-- Settles O7: the class of a frame fixes its format, and the fields rebuild it. -/
theorem encodeOfDecode : Obligations.EncodeOfDecode := encode_decode

/-- R64: a row whose pattern holds, with no earlier row's, is the class. -/
theorem classify_eq {c : Cfg} {f : Bytes} {r : FrameClass} (hr : r ∈ rows)
    (hp : rowPattern c r f = true) (hbefore : ∀ r' ∈ rowsBefore r, rowPattern c r' f = false) :
    classify c f = r := by
  have hsplit : rows = rowsBefore r ++ r :: (rows.dropWhile (· ≠ r)).tail := by
    revert hr; cases r <;> decide
  rw [classify, hsplit, List.find?_append, List.find?_eq_none.mpr (by simpa using hbefore),
    List.find?_cons_of_pos (by exact hp)]
  rfl

/-- R64, R67: a frame of no row's pattern is of class `UNKNOWN`. -/
theorem classify_eq_unknown {c : Cfg} {f : Bytes} (h : ∀ r ∈ rows, rowPattern c r f = false) :
    classify c f = .unknown := by
  rw [classify, List.find?_eq_none.mpr (by simpa using h)]
  rfl

/-- R64: the patterns of rows 1, 2, 4, 5 and 6 hold of no I-block, whose first byte they exclude. -/
theorem linkPattern_iblock {f : Bytes} (hi : isIBlock f = true) :
    patWupb f = false ∧ patReqb f = false ∧ patReset f = false ∧ patWtxack f = false
      ∧ patHalt f = false := by
  simp only [isIBlock, Bool.and_eq_true, Bool.or_eq_true, beq_iff_eq] at hi
  obtain ⟨-, h0 | h0⟩ := hi <;> simp [patWupb, patReqb, patReset, patWtxack, patHalt, h0]

/-- R56: the PCB and length of an I-block that is no ATTRIB. -/
theorem patAttrib_iFrame {c : Cfg} {ns : Bit} {a : Bytes} {n : Nat} (c0 c1 : Byte)
    (hn : n = 3 + a.length) (h : ¬ attribShaped c n (iblockPcb ns)) :
    patAttrib c (iFrame ns a c0 c1) = false := by
  have hpcb : ∀ ns : Bit, iblockPcb ns = pcbOf ns := by decide
  rw [Bool.eq_false_iff, ne_eq, patAttrib_iff, iFrame_length, iFrame_byteAt_zero, ← hpcb,
    show a.length + 3 = n by omega]
  exact h

@[simp] theorem iFrame_crcByte0 (ns : Bit) (a : Bytes) (c0 c1 : Byte) :
    crcByte0 (iFrame ns a c0 c1) = c0 := by
  simp [crcByte0, byteAt, iFrame]

@[simp] theorem iFrame_crcByte1 (ns : Bit) (a : Bytes) (c0 c1 : Byte) :
    crcByte1 (iFrame ns a c0 c1) = c1 := by
  simp [crcByte1, byteAt, iFrame]

@[simp] theorem iFrame_cla (ns : Bit) (cla ins : Byte) (body : Bytes) (c0 c1 : Byte) :
    byteAt (iFrame ns (cla :: ins :: body) c0 c1) 1 = cla := rfl

@[simp] theorem iFrame_bodyOf (ns : Bit) (cla ins : Byte) (body : Bytes) (c0 c1 : Byte) :
    bodyOf (iFrame ns (cla :: ins :: body) c0 c1) = body := by
  simp [bodyOf, slice, iFrame]

/-- R60, R64: the pattern of SELECT on an I-block with an INS is the test of the INS. -/
theorem patSelect_iFrame (c : Cfg) (ns : Bit) (cla ins : Byte) (body : Bytes) (c0 c1 : Byte) :
    patSelect c (iFrame ns (cla :: ins :: body) c0 c1) = (ins == c.insSelect) := by
  simp [patSelect, iFrame_ins]

theorem patRead_iFrame (c : Cfg) (ns : Bit) (cla ins : Byte) (body : Bytes) (c0 c1 : Byte) :
    patRead c (iFrame ns (cla :: ins :: body) c0 c1) = (ins == c.insReadRecord) := by
  simp [patRead, iFrame_ins]

theorem patGetData_iFrame (c : Cfg) (ns : Bit) (cla ins : Byte) (body : Bytes) (c0 c1 : Byte) :
    patGetData c (iFrame ns (cla :: ins :: body) c0 c1)
      = (ins == c.insGetData && c.getDataTable.any (fun g => g.apdu == cla :: ins :: body)) := by
  simp [patGetData, iFrame_ins, findGetData_isSome]

/-! The class of each instruction's frame, from the conditions WellFormed puts on its fields. -/

theorem classify_wupbFrame {param : Byte} (hbit : param.getLsbD 3 = true) (c : Cfg)
    (afi c0 c1 : Byte) : classify c (wupbFrame afi param c0 c1) = .wupb := by
  have hp : patWupb (wupbFrame afi param c0 c1) = true := by
    simpa [patWupb, addressed_eq, wupbFrame, byteAt] using hbit
  exact classify_eq (by decide) hp nofun

theorem classify_reqbFrame {param : Byte} (hbit : param.getLsbD 3 = false) (c : Cfg)
    (afi c0 c1 : Byte) : classify c (reqbFrame afi param c0 c1) = .reqb := by
  have hp : patReqb (reqbFrame afi param c0 c1) = true := by
    simpa [patReqb, addressed_eq, reqbFrame, byteAt] using hbit
  have hw : patWupb (reqbFrame afi param c0 c1) = false := by
    simpa [patWupb, addressed_eq, reqbFrame, byteAt] using hbit
  exact classify_eq (by decide) hp (by simp [rowsBefore, rows, rowPattern, hw])

theorem classify_attribFrame {c : Cfg} {first : Byte} {rest : Bytes}
    (h : attribShaped c (1 + rest.length) first) : classify c (attribFrame first rest) = .attrib := by
  obtain ⟨hl, hop⟩ := h
  have hlen : (attribFrame first rest).length = 11 := by rw [attribFrame, List.length_cons]; omega
  have hp : patAttrib c (attribFrame first rest) = true := (patAttrib_iff c _).mpr ⟨hlen, hop⟩
  exact classify_eq (by decide) hp (by simp [rowsBefore, rows, rowPattern, patWupb, patReqb, hlen])

theorem classify_resetFrame (c : Cfg) (c0 c1 : Byte) : classify c (resetFrame c0 c1) = .reset :=
  classify_eq (by decide) rfl
    (by simp [rowsBefore, rows, rowPattern, patWupb, patReqb, patAttrib, resetFrame])

theorem classify_wtxackFrame (c : Cfg) (m c0 c1 : Byte) :
    classify c (wtxackFrame m c0 c1) = .wtxack :=
  classify_eq (by decide) rfl
    (by simp [rowsBefore, rows, rowPattern, patWupb, patReqb, patAttrib, patReset, wtxackFrame])

theorem classify_haltFrame (c : Cfg) (u : Uid) (c0 c1 : Byte) :
    classify c (haltFrame u c0 c1) = .halt :=
  classify_eq (by decide) rfl (by simp [rowsBefore, rows, rowPattern, patWupb, patReqb, patAttrib,
    patReset, patWtxack, haltFrame, uidBytes])

theorem classify_select {c : Cfg} {f : Bytes} (hp : patSelect c f = true)
    (ha : patAttrib c f = false) : classify c f = .select := by
  have hl := linkPattern_iblock (isIBlock_of_rowPattern (r := .select) (by simp) hp)
  exact classify_eq (by decide) hp (by simp [rowsBefore, rows, rowPattern, hl, ha])

theorem classify_readRecord {c : Cfg} {f : Bytes} (hp : patRead c f = true)
    (ha : patAttrib c f = false) (hs : patSelect c f = false) : classify c f = .readRecord := by
  have hl := linkPattern_iblock (isIBlock_of_rowPattern (r := .readRecord) (by simp) hp)
  exact classify_eq (by decide) hp (by simp [rowsBefore, rows, rowPattern, hl, ha, hs])

theorem classify_getData {c : Cfg} {f : Bytes} (hp : patGetData c f = true)
    (ha : patAttrib c f = false) (hs : patSelect c f = false) (hr : patRead c f = false) :
    classify c f = .getData := by
  have hl := linkPattern_iblock (isIBlock_of_rowPattern (r := .getData) (by simp) hp)
  exact classify_eq (by decide) hp (by simp [rowsBefore, rows, rowPattern, hl, ha, hs, hr])

/-- R64: an I-block is generic if its APDU is claimed by no earlier class. -/
theorem classify_iblock {c : Cfg} {f : Bytes} (hi : isIBlock f = true)
    (ha : patAttrib c f = false) (hno : claimedApdu c (apdu f) = false) : classify c f = .iblock := by
  have hl := linkPattern_iblock hi
  simp only [claimedApdu_apdu hi, Bool.or_eq_false_iff] at hno
  exact classify_eq (by decide) hi (by simp [rowsBefore, rows, rowPattern, hl, ha, hno])

/-- R64: a length and a first byte that a frame has not both fit no row that asks for them. -/
theorem fixedPattern_false {f : Bytes} {n : Nat} {b : Byte} (hn : 1 ≤ n)
    (h : ¬ (f.length = n ∧ f.head? = some b)) : (f.length == n && byteAt f 0 == b) = false := by
  rw [Bool.eq_false_iff, ne_eq, Bool.and_eq_true, beq_iff_eq, beq_iff_eq]
  rintro ⟨hl, hb⟩
  cases f with
  | nil => simp at hl; omega
  | cons x g => exact h ⟨hl, congrArg some hb⟩

theorem isIBlock_eq_false {f : Bytes}
    (h : ¬ (3 ≤ f.length ∧ (f.head? = some 0x02 ∨ f.head? = some 0x03))) : isIBlock f = false := by
  rw [Bool.eq_false_iff]
  intro hi
  obtain ⟨x, g, rfl⟩ := List.exists_cons_of_length_pos (Nat.zero_lt_of_lt (three_le_of_isIBlock hi))
  simp only [isIBlock, Bool.and_eq_true, decide_eq_true_eq, Bool.or_eq_true, beq_iff_eq] at hi
  exact h ⟨hi.1, hi.2.imp (congrArg some) (congrArg some)⟩

theorem patAttrib_eq_false {c : Cfg} {f : Bytes}
    (h : ¬ (f.length = 11 ∧ (c.attribOpcode = none ∨ c.attribOpcode = f.head?))) :
    patAttrib c f = false := by
  rw [Bool.eq_false_iff, ne_eq, patAttrib_iff]
  rintro ⟨hl, hop⟩
  obtain ⟨x, g, rfl⟩ := List.exists_cons_of_length_pos (show 0 < f.length by omega)
  exact h ⟨hl, hop⟩

/-- R64, R67: a frame that WellFormed admits as unrecognised fits no row. -/
theorem classify_unrecognised {c : Cfg} {f : Bytes} (h : WellFormed c (.unrecognised f)) :
    classify c f = .unknown := by
  simp only [WellFormed, wellFormed, decide_eq_true_eq] at h
  obtain ⟨-, hatq, hattrib, hreset, hwtxack, hhalt, hi⟩ := h
  have hatq := fixedPattern_false (by decide) hatq
  have hwupb : patWupb f = false := by rw [patWupb, hatq, Bool.false_and]
  have hreqb : patReqb f = false := by rw [patReqb, hatq, Bool.false_and]
  have hreset : patReset f = false := fixedPattern_false (by decide) hreset
  have hwtxack : patWtxack f = false := fixedPattern_false (by decide) hwtxack
  have hhalt : patHalt f = false := fixedPattern_false (by decide) hhalt
  refine classify_eq_unknown ?_
  simp [rows, rowPattern, hwupb, hreqb, patAttrib_eq_false hattrib, hreset, hwtxack, hhalt,
    patSelect, patRead, patGetData, patIblock, isIBlock_eq_false hi]

/-- Settles O6, by the instruction: its frame is of its class, whose fields are the operands. -/
theorem decodeOfEncode : Obligations.DecodeOfEncode := by
  intro c i hw
  cases i with
  | wupb afi param c0 c1 =>
    simp only [WellFormed, wellFormed, Bool.and_eq_true] at hw
    rw [encode, decode, decodeFrame, classify_wupbFrame hw.1]
    rfl
  | reqb afi param c0 c1 =>
    simp only [WellFormed, wellFormed, Bool.and_eq_true, Bool.not_eq_true'] at hw
    rw [encode, decode, decodeFrame, classify_reqbFrame hw.1]
    rfl
  | attrib first rest =>
    rw [encode, decode, decodeFrame, classify_attribFrame (of_decide_eq_true hw).1]
    rfl
  | reset c0 c1 =>
    rw [encode, decode, decodeFrame, classify_resetFrame]
    rfl
  | wtxack m c0 c1 =>
    rw [encode, decode, decodeFrame, classify_wtxackFrame]
    rfl
  | halt u c0 c1 =>
    rw [encode, decode, decodeFrame, classify_haltFrame]
    rfl
  | select ns cla body c0 c1 =>
    obtain ⟨hshape, -⟩ := of_decide_eq_true hw
    have ha := patAttrib_iFrame (a := cla :: c.insSelect :: body) c0 c1
      (by simp only [List.length_cons]; omega) hshape
    rw [encode, decode, decodeFrame, selectFrame, classify_select (by simp [patSelect_iFrame]) ha]
    simp
  | readRecord ns cla body c0 c1 =>
    obtain ⟨hshape, -, hns⟩ := of_decide_eq_true hw
    have ha := patAttrib_iFrame (a := cla :: c.insReadRecord :: body) c0 c1
      (by simp only [List.length_cons]; omega) hshape
    rw [encode, decode, decodeFrame, readRecordFrame,
      classify_readRecord (by simp [patRead_iFrame]) ha
      (by simpa [patSelect_iFrame] using hns)]
    simp
  | getData ns cla body c0 c1 =>
    obtain ⟨hfmt, hkey⟩ := Bool.and_eq_true_iff.mp hw
    obtain ⟨hshape, -, hns, hnr⟩ := of_decide_eq_true hfmt
    have ha := patAttrib_iFrame (a := cla :: c.insGetData :: body) c0 c1
      (by simp only [List.length_cons]; omega) hshape
    rw [encode, decode, decodeFrame, getDataFrame,
      classify_getData (by simpa [patGetData_iFrame] using hkey) ha
      (by simpa [patSelect_iFrame] using hns) (by simpa [patRead_iFrame] using hnr)]
    simp
  | iblock ns a c0 c1 =>
    obtain ⟨hfmt, hno⟩ := Bool.and_eq_true_iff.mp hw
    have ha := patAttrib_iFrame c0 c1 rfl (of_decide_eq_true hfmt).1
    rw [encode, decode, decodeFrame, classify_iblock (iFrame_isIBlock ..) ha (by simpa using hno)]
    simp
  | unrecognised f => rw [encode, decode, decodeFrame, classify_unrecognised hw]
  | fieldOn | rxNone | oracleReply | wtxElapsed | noFieldTimeout | abort | phyFail => rfl

end Sys2Proof.Proofs
end

section
/-! SUPPORT. One step runs the instruction of the oldest event (R51), and the meaning of a frame's instruction
is the priority table's (R65, R85). -/

namespace Sys2Proof.Proofs

open Sys2Proof Sys2Proof.Machine

/-! ### The step -/

/-- Settles O2: with nothing to take, the step answers the state. -/
theorem stepWithoutEventWaits : Obligations.StepWithoutEventWaits := by
  intro s h
  simp [step, State.takeEvent, h]

/-- Settles O1: the event taken decodes to the instruction it encodes. -/
theorem stepRunsDecodedEvent : Obligations.StepRunsDecodedEvent := by
  intro s i es hw h
  simp only [step, State.takeEvent, h, decodeOfEncode s.cfg i hw]

/-- Settles O9, by evaluating the decoder on the six frames. -/
theorem writtenFramesDecode : Obligations.WrittenFramesDecode := by
  unfold Obligations.WrittenFramesDecode
  decide

/-! ### The priority table -/

/-- R67: if every row's pattern or guard fails, the frame is unrecognised. -/
theorem firstRow_of_none {rs : List FrameClass} {cls : FrameClass} {f : Bytes} {s : State}
    (h : ∀ r ∈ rs, rowPattern s.cfg r f = false ∨ rowGuard r s = false) :
    firstRow rs cls f s = .next (unrecognisedRule cls f s) := by
  unfold firstRow
  rw [List.find?_eq_none.mpr fun r hr => ?_]
  rcases h r hr with hp | hg
  · simp [hp]
  · simp [hg]

/-- R65: rows whose pattern fails are passed over. -/
theorem firstRow_skip {rs : List FrameClass} {f : Bytes} {s : State}
    (h : ∀ r ∈ rs, rowPattern s.cfg r f = false) (rs' : List FrameClass) (cls : FrameClass) :
    firstRow (rs ++ rs') cls f s = firstRow rs' cls f s := by
  unfold firstRow
  rw [List.find?_append, List.find?_eq_none.mpr (by simpa using fun r hr => by simp [h r hr])]
  rfl

/-- The rows from a class on in the order of R64: none from `UNKNOWN`. -/
def rowsFrom (r : FrameClass) : List FrameClass := rows.dropWhile (· ≠ r)

/-- R64, R65: the table may be consulted from the row of the frame's class on. -/
theorem firstRow_rows (f : Bytes) (s : State) (cls : FrameClass) :
    firstRow rows cls f s = firstRow (rowsFrom (classify s.cfg f)) cls f s := by
  have hsplit : rows = rowsBefore (classify s.cfg f) ++ rowsFrom (classify s.cfg f) :=
    List.takeWhile_append_dropWhile.symm
  rw [hsplit, firstRow_skip fun r hr => rowPattern_before_classify rfl hr]

/-- R65: consulted for a frame of a row's class, the table asks that row's guard, then the rows after it. -/
theorem firstRow_of_classify {r : FrameClass} {f : Bytes} {s : State}
    (h : classify s.cfg f = r) (hr : r ≠ .unknown) (cls : FrameClass) :
    firstRow rows cls f s
      = if rowGuard r s then rowRule r cls f s else firstRow (rowsFrom r).tail cls f s := by
  have hcons : rowsFrom r = r :: (rowsFrom r).tail := by
    revert hr; cases r <;> decide
  rw [firstRow_rows, h, hcons, firstRow_cons, rowPattern_of_classify h hr, Bool.true_and,
    List.tail_cons]

/-- R85: what is done in `Idle` and `Halted` is all that tells two dispatches of a frame apart. -/
theorem onFrame_congr {cls : FrameClass} {f : Bytes} {s : State} {k k' : State → Result}
    (h : k (s.emit (.log (.rx f cls s.cardState))) = k' (s.emit (.log (.rx f cls s.cardState)))) :
    onFrame cls f s k = onFrame cls f s k' := by
  by_cases hr : s.run = .running
  · simp only [onFrame, whenRunning_running hr]
    cases hc : s.cardState with
    | idle | halted => simpa [hc] using h
    | _ => rfl
  · simp only [onFrame, whenRunning_terminated hr]

/-- R65, R85: the dispatch of a frame of a row's class. -/
theorem priorityDispatch_of_classify {r : FrameClass} {f : Bytes} {s : State}
    (h : classify s.cfg f = r) (hr : r ≠ .unknown) :
    priorityDispatch f s = onFrame r f s fun s1 =>
      if rowGuard r s1 then rowRule r r f s1 else firstRow (rowsFrom r).tail r f s1 := by
  rw [priorityDispatch, h]
  refine onFrame_congr ?_
  rw [firstRow_of_classify (by exact h) hr]

/-- R65, R85: the same for a frame that no later row's pattern and guard fit. -/
theorem priorityDispatch_of_classify_last {r : FrameClass} {f : Bytes} {s : State}
    (h : classify s.cfg f = r) (hr : r ≠ .unknown)
    (hrest : ∀ s1 : State, ∀ r' ∈ (rowsFrom r).tail,
      rowPattern s.cfg r' f = false ∨ rowGuard r' s1 = false) :
    priorityDispatch f s = onFrame r f s fun s1 =>
      if rowGuard r s1 then rowRule r r f s1 else .next (unrecognisedRule r f s1) := by
  rw [priorityDispatch_of_classify h hr]
  refine onFrame_congr ?_
  rw [firstRow_of_none (by exact hrest _)]

/-- R60, R64: a frame that is no I-block fits none of the last four rows. -/
theorem apduPattern_false {f : Bytes} (hi : isIBlock f = false) (c : Cfg) :
    ∀ r ∈ rowsFrom .select, rowPattern c r f = false := by
  simp [rowsFrom, rows, rowPattern, patSelect, patRead, patGetData, patIblock, hi]

/-- R92, R93: rows 5 and 6 never fire, so from WTXACK's row on only an I-block's can. -/
theorem laterRow_false {f : Bytes} (hi : isIBlock f = false) (c : Cfg) (s : State) :
    ∀ r ∈ rowsFrom .wtxack, rowPattern c r f = false ∨ rowGuard r s = false := by
  intro r hr
  have hsplit : r = .wtxack ∨ r = .halt ∨ r ∈ rowsFrom .select := by
    revert hr; cases r <;> decide
  rcases hsplit with rfl | rfl | hr
  · exact .inr rfl
  · exact .inr rfl
  · exact .inl (apduPattern_false hi c r hr)

/-! One lemma per class: the instruction of a frame of that class is the frame's dispatch. After WUPB, REQB,
WTXACK and HALT no row can fire; after ATTRIB only those of an I-block can. -/

section

variable {f : Bytes} {s : State}

theorem exec_wupb_dispatch {afi param c0 c1 : Byte} (hf : wupbFrame afi param c0 c1 = f)
    (hc : classify s.cfg f = .wupb) : exec (.wupb afi param c0 c1) s = priorityDispatch f s := by
  have hp : patWupb f = true := rowPattern_of_classify hc nofun
  subst hf
  have hreqb : patReqb (wupbFrame afi param c0 c1) = false := by
    simp only [patWupb, Bool.and_eq_true] at hp
    simp [patReqb, hp]
  rw [priorityDispatch_of_classify_last hc nofun fun s1 =>
    List.forall_mem_cons.mpr ⟨.inl hreqb, List.forall_mem_cons.mpr ⟨.inl rfl,
      List.forall_mem_cons.mpr ⟨.inl rfl, laterRow_false rfl _ s1⟩⟩⟩]
  rfl

theorem exec_reqb_dispatch {afi param c0 c1 : Byte} (hf : reqbFrame afi param c0 c1 = f)
    (hc : classify s.cfg f = .reqb) : exec (.reqb afi param c0 c1) s = priorityDispatch f s := by
  subst hf
  rw [priorityDispatch_of_classify_last hc nofun fun s1 =>
    List.forall_mem_cons.mpr ⟨.inl rfl, List.forall_mem_cons.mpr ⟨.inl rfl,
      laterRow_false rfl _ s1⟩⟩]
  rfl

theorem exec_attrib_dispatch {first : Byte} {rest : Bytes} (hf : attribFrame first rest = f)
    (hc : classify s.cfg f = .attrib) : exec (.attrib first rest) s = priorityDispatch f s := by
  have hp : patAttrib s.cfg f = true := rowPattern_of_classify hc nofun
  obtain ⟨hl, -⟩ := (patAttrib_iff _ _).mp hp
  subst hf
  have hskip : ∀ r ∈ [FrameClass.reset, .wtxack, .halt],
      rowPattern s.cfg r (attribFrame first rest) = false := by
    simp [rowPattern, patReset, patWtxack, patHalt, hl]
  have htail : (rowsFrom .attrib).tail = [.reset, .wtxack, .halt] ++ rowsFrom .select := rfl
  rw [priorityDispatch_of_classify hc nofun]
  dsimp only [exec, execAttrib]
  refine onFrame_congr ?_
  rw [htail, firstRow_skip (by exact hskip)]
  rfl

theorem exec_reset_dispatch {c0 c1 : Byte} (hf : resetFrame c0 c1 = f)
    (hc : classify s.cfg f = .reset) : exec (.reset c0 c1) s = priorityDispatch f s := by
  subst hf
  rw [priorityDispatch_of_classify hc nofun]
  rfl

theorem exec_wtxack_dispatch {m c0 c1 : Byte} (hf : wtxackFrame m c0 c1 = f)
    (hc : classify s.cfg f = .wtxack) : exec (.wtxack m c0 c1) s = priorityDispatch f s := by
  subst hf
  rw [priorityDispatch_of_classify_last hc nofun fun s1 r hr =>
    laterRow_false rfl _ s1 r (List.mem_cons_of_mem _ hr)]
  rfl

theorem exec_halt_dispatch {u : Uid} {c0 c1 : Byte} (hf : haltFrame u c0 c1 = f)
    (hc : classify s.cfg f = .halt) : exec (.halt u c0 c1) s = priorityDispatch f s := by
  subst hf
  rw [priorityDispatch_of_classify_last hc nofun fun s1 r hr =>
    .inl (apduPattern_false rfl _ r hr)]
  rfl

theorem exec_select_dispatch {ns : Bit} {cla c0 c1 : Byte} {body : Bytes}
    (hf : selectFrame s.cfg ns cla body c0 c1 = f) (hc : classify s.cfg f = .select) :
    exec (.select ns cla body c0 c1) s = priorityDispatch f s := by
  subst hf
  rw [priorityDispatch_of_classify hc nofun]
  rfl

theorem exec_readRecord_dispatch {ns : Bit} {cla c0 c1 : Byte} {body : Bytes}
    (hf : readRecordFrame s.cfg ns cla body c0 c1 = f) (hc : classify s.cfg f = .readRecord) :
    exec (.readRecord ns cla body c0 c1) s = priorityDispatch f s := by
  subst hf
  rw [priorityDispatch_of_classify hc nofun]
  rfl

theorem exec_getData_dispatch {ns : Bit} {cla c0 c1 : Byte} {body : Bytes}
    (hf : getDataFrame s.cfg ns cla body c0 c1 = f) (hc : classify s.cfg f = .getData) :
    exec (.getData ns cla body c0 c1) s = priorityDispatch f s := by
  subst hf
  rw [priorityDispatch_of_classify hc nofun]
  rfl

theorem exec_iblock_dispatch {ns : Bit} {a : Bytes} {c0 c1 : Byte} (hf : iFrame ns a c0 c1 = f)
    (hc : classify s.cfg f = .iblock) : exec (.iblock ns a c0 c1) s = priorityDispatch f s := by
  subst hf
  rw [priorityDispatch_of_classify hc nofun]
  rfl

/-- R67: no row's pattern holds, so the table comes to its end. -/
theorem exec_unrecognised_dispatch (hc : classify s.cfg f = .unknown) :
    exec (.unrecognised f) s = priorityDispatch f s := by
  rw [priorityDispatch, hc]
  dsimp only [exec, execUnrecognised]
  refine onFrame_congr ?_
  rw [firstRow_rows, emit_cfg, hc]
  rfl

end

/-- Settles O5, by the class of the frame: the rows before it are passed over, and its instruction asks the
guard of its own row and then the later rows that can fire. -/
theorem meaningIsPriorityTable : Obligations.MeaningIsPriorityTable := by
  intro f s
  have henc := encode_decodeFrame s.cfg f
  unfold decodeFrame at henc ⊢
  cases hc : classify s.cfg f <;> rw [hc] at henc <;> injection henc with hf
  case wupb => exact exec_wupb_dispatch hf hc
  case reqb => exact exec_reqb_dispatch hf hc
  case attrib => exact exec_attrib_dispatch hf hc
  case reset => exact exec_reset_dispatch hf hc
  case wtxack => exact exec_wtxack_dispatch hf hc
  case halt => exact exec_halt_dispatch hf hc
  case select => exact exec_select_dispatch hf hc
  case readRecord => exact exec_readRecord_dispatch hf hc
  case getData => exact exec_getData_dispatch hf hc
  case iblock => exact exec_iblock_dispatch hf hc
  case unknown => exact exec_unrecognised_dispatch hc

end Sys2Proof.Proofs
end

section
/-! SUPPORT. The frames a session sends (R79, R63), and frames that are only logged or fall through to a
later row (R65, R66, R94). -/

namespace Sys2Proof.Proofs

open Sys2Proof Sys2Proof.Machine

/-! ### Transmitted frames carry their CRC -/

/-- R85, first line: a terminated machine absorbs every instruction. -/
theorem exec_terminated {s : State} (h : s.run ≠ .running) (i : Instr) : exec i s = .next s := by
  cases i with
  | wupb | reqb | attrib | reset | wtxack | halt | select | readRecord | getData | iblock
  | unrecognised =>
    dsimp only [exec, execWupb, execReqb, execAttrib, execReset, execWtxack, execHalt, execSelect,
      execReadRecord, execGetData, execIblock, execUnrecognised, onFrame]
    exact whenRunning_terminated h _
  | fieldOn | rxNone | oracleReply | wtxElapsed | noFieldTimeout | abort | phyFail =>
    dsimp only [exec, execFieldOn, execRxNone, execOracleReply, execWtxElapsed, execNoFieldTimeout,
      execAbort, execPhyFail]
    exact whenRunning_terminated h _

/-- A step of a terminated machine emits nothing. -/
theorem step_terminated_outs {s t : State} (h : s.run ≠ .running) (hs : step s = .next t) :
    t.outs = s.outs := by
  obtain ⟨-, rfl⟩ | ⟨e, es, -, -, hx, -⟩ := step_effect hs
  · rfl
  · cases (exec_terminated (s := { s with inputs := es }) h _).symm.trans hx
    rfl

/-- R75: the PCB step leaves the CRC flag alone. -/
theorem pcbStep_crcDone (e : ResponseEntry) (f : Bytes) : (pcbStep e f).1.crcDone = e.crcDone := by
  unfold pcbStep
  split
  · rfl
  · split <;> rfl

/-- R75, R76: finalizing a payload with nothing applied yet appends its CRC, whatever its PCB. -/
theorem finalize_raw_valid (p f : Bytes) : crcValid (finalize (rawEntry p) f).1.payload = true := by
  have hraw : (pcbStep (rawEntry p) f).1.crcDone = false := pcbStep_crcDone _ _
  simp [finalize, crcStep, hraw, crcFrame_valid]

/-- R79: every frame an effect sends ends in its CRC, if the prepared frames do. -/
theorem effect_txCrcOk {e : Event} {s t : State} (h : Effect e s t)
    (hatqb : crcValid s.prep.atqb = true) (hok : crcValid s.prep.ok = true) :
    Appends (fun o => txCrcOk o = true) s t := by
  cases h with
  | same => exact appends_refl _ _
  | frameLogged f cls os _ hos => exact ⟨_, rfl, by rcases hos with rfl | rfl <;> simp [txCrcOk]⟩
  | reply id p b =>
    refine ⟨_, replyRule_outs id p b s, ?_⟩
    simp only [List.forall_mem_append]
    refine ⟨by simp [txCrcOk], fun o ho => ?_, by simp [txCrcOk, finalize_raw_valid]⟩
    obtain ⟨l, rfl⟩ := finalize_logs _ _ o ho
    rfl
  | exit _ reason os _ hr hos => exact ⟨_, rfl, by rcases hos with rfl | rfl <;> simp [txCrcOk]⟩
  | _ => exact ⟨_, rfl, by simp [txCrcOk, hatqb, hok, crcFrame_valid, wtxFrame]⟩

/-- Settles O54: a running session holds the prepared frames, which carry their CRC, and every other frame
is finalized as it is sent. -/
theorem transmittedFramesCarryCrc : Obligations.TransmittedFramesCarryCrc := by
  intro s t h hs
  by_cases hr : s.run = .running
  · have hprep : s.prep = prepare s.cfg s.uidOverride := h.fixed.prepared (by simp [hr])
    have hatqb : crcValid s.prep.atqb = true := by rw [hprep]; exact atqbFrame_valid _ _
    have hok : crcValid s.prep.ok = true := by rw [hprep]; exact entryOk_valid
    obtain rfl | ⟨e, es, -, he⟩ := step_effect_of_event hs
    · exact newOutputs_of_appends (appends_refl _ _)
    · exact newOutputs_of_appends (s := { s with inputs := es }) (effect_txCrcOk he hatqb hok)
  · simp [newOutputs, step_terminated_outs hr hs]

/-! ### S(WTX) -/

/-- R63: the mask keeps the bits of a WTXM that is in range. -/
theorem wtxm_mask {n : Nat} (h : n ≤ 59) : (BitVec.ofNat 8 n &&& 0x3F).toNat = n := by
  have hmask : n &&& 63 = n % 64 := Nat.and_two_pow_sub_one_eq_mod n 6
  simp only [BitVec.toNat_and, BitVec.toNat_ofNat, Nat.mod_eq_of_lt (show n < 2 ^ 8 by omega)]
  exact hmask.trans (Nat.mod_eq_of_lt (by omega))

/-- R13, R63: the WTXM is the clamped units. -/
theorem wtxm_toNat (c : Cfg) : (wtxm c).toNat = min (max c.wtxUnits 1) 59 :=
  wtxm_mask (Nat.min_le_right _ _)

/-- Settles O15: the frame is R102's, and its WTXM the clamped units. -/
theorem wtxFrameIsWellShaped : Obligations.WtxFrameIsWellShaped := by
  intro c
  have hbits : wtxm c &&& 0xC0 = 0 := by
    rw [wtxm, BitVec.and_assoc]
    exact BitVec.and_zero
  have hm := wtxm_toNat c
  exact ⟨wtxm c, rfl, by omega, by omega, hbits, by omega, by omega, by omega⟩

/-! ### Frames that are only logged, and one that falls through -/

/-- R94: a frame in `Idle` or `Halted` that comes to no row is recorded and unrecognised. -/
theorem onFrame_unrecognised {cls : FrameClass} {f : Bytes} {s : State} {k : State → Result}
    (hr : s.run = .running) (hc : s.cardState = .idle ∨ s.cardState = .halted)
    (hk : ∀ s1 : State, s1.cardState = s.cardState → s1.active = s.active →
      k s1 = .next (unrecognisedRule cls f s1)) :
    onFrame cls f s k = .next { s with
      outs := s.outs ++
        [.log (.rx f cls s.cardState), .log (.error (.unrecognized f cls s.cardState))] } := by
  rw [onFrame_ready k hr hc, hk (s.emit _) rfl rfl, unrecognisedRule_eq]
  simp [emit_eq]

/-- Settles O27, by the dispatch in each of the three states. -/
theorem unknownFrameOnlyLogged : Obligations.UnknownFrameOnlyLogged := by
  intro f s hr hc
  dsimp only [exec, execUnrecognised]
  rcases hc with hc | hc
  · rw [onFrame_noField _ hr hc, hc]
  · exact onFrame_unrecognised hr hc fun _ _ _ => rfl

/-- R65: while not active the rows from READ RECORD on cannot fire. -/
theorem firstRow_inactive {s : State} (ha : s.active = false) {rs : List FrameClass}
    (hrs : ∀ r ∈ rs, r = .readRecord ∨ r = .getData ∨ r = .iblock) (cls : FrameClass) (f : Bytes) :
    firstRow rs cls f s = .next (unrecognisedRule cls f s) := by
  refine firstRow_of_none fun r hr => .inr ?_
  rcases hrs r hr with rfl | rfl | rfl
  · simp [rowGuard, guardRead, ha]
  · exact ha
  · exact ha

/-- Settles O34: the guard of the frame's own row fails, and those of the rows after it. -/
theorem inactiveApdusOnlyLogged : Obligations.InactiveApdusOnlyLogged := by
  intro ns cla c0 c1 body a s hr hc ha
  dsimp only [exec, execSelect, execReadRecord, execGetData, execIblock]
  refine ⟨fun hh => ?_, ?_, ?_, ?_⟩ <;> refine onFrame_unrecognised hr hc fun s1 hc1 ha1 => ?_ <;>
    rw [ha] at ha1
  · have hg : guardSelect s1 = false := by simp [guardSelect, hc1, hh, ha1]
    simp [hg, firstRow_inactive ha1, selectFrame]
  · have hg : guardRead s1 = false := by simp [guardRead, ha1]
    simp [hg, firstRow_inactive ha1, readRecordFrame]
  · have hg : guardGetData s1 = false := ha1
    simp [hg, firstRow_inactive ha1, getDataFrame]
  · have hg : guardIblock s1 = false := ha1
    simp [hg]

/-- R97: a SELECT of a known file opens it. -/
theorem selectRule_hit {f : Bytes} {s : State} {id : Byte × Byte} {k : Nat} {e : FileEntry}
    (hf : fid? f = some id) (hk : fileAt s.cfg id = some (k, e)) :
    selectRule f s = selectHitRule id k e f s := by
  simp only [selectRule, hf, hk]

/-- R66: the table passes over ATTRIB's row while active, and SELECT's row fires on the same frame. -/
theorem attrib_falls_to_select {first : Byte} {rest f : Bytes} {s : State} {id : Byte × Byte} {k : Nat}
    {e : FileEntry} (hf : attribFrame first rest = f) (hp : patSelect s.cfg f = true)
    (hid : fid? f = some id) (hk : fileAt s.cfg id = some (k, e)) (hr : s.run = .running)
    (hc : s.cardState = .idle) (ha : s.active = true) :
    exec (.attrib first rest) s
      = .next (selectHitRule id k e f (s.emit (.log (.rx f .attrib s.cardState)))) := by
  dsimp only [exec, execAttrib]
  rw [hf, onFrame_ready _ hr (.inl hc)]
  have hno : ∀ o, guardAttrib (s.emit o) = false := fun o => by simp [guardAttrib, ha]
  have hyes : ∀ o, rowGuard .select (s.emit o) = true := fun o => by simp [rowGuard, guardSelect, ha]
  rw [hno, if_neg Bool.false_ne_true, firstRow_cons, hyes, emit_cfg, rowPattern, hp,
    Bool.and_true, if_pos rfl, rowRule, selectRule_hit hid (by rw [emit_cfg, hk])]

/-- Settles O23: the file is opened as by SELECT, under the PCB of the I-block. -/
theorem attribShapedSelectFallsThrough : Obligations.AttribShapedSelectFallsThrough := by
  intro ns cla p1 p2 lc d0 d1 le c0 c1 k e s hr hc ha hk f
  have hf : f = iFrame ns [cla, s.cfg.insSelect, p1, p2, lc, d0, d1, le] c0 c1 := rfl
  have hi : isIBlock f = true := by rw [hf, iFrame_isIBlock]
  have hns : nsOf f = ns := by rw [hf, iFrame_nsOf]
  have hp : patSelect s.cfg f = true := by rw [hf, patSelect_iFrame, beq_self_eq_true]
  have hid : fid? f = some (d0, d1) := by rw [hf, iFrame_fid]
  rw [attrib_falls_to_select (f := f) rfl hp hid hk hr hc ha, selectHitRule_eq _ _ _ _ _ hi, hns]
  simp [emit_eq, hc, ha, f, byteAt]

end Sys2Proof.Proofs
end

section
/-! SUPPORT. Nothing reads the CRC bytes of an inbound frame (R54): two frames that differ in them only have
the same class, and the same answer but for the copies of the frame that are kept. -/

namespace Sys2Proof.Proofs

open Sys2Proof Sys2Proof.Machine

/-! ### Frames that differ in their CRC bytes only -/

/-- Two frames of one length whose bytes before the last two are the same. -/
structure SameBare (f g : Bytes) : Prop where
  length : f.length = g.length
  bare : bareFrame f = bareFrame g

theorem sameBare_append (f : Bytes) (a b a' b' : Byte) : SameBare (f ++ [a, b]) (f ++ [a', b']) :=
  ⟨by simp, by simp⟩

/-- A byte before the last two is one of the bare frame. -/
theorem byteAt_bareFrame {f : Bytes} {i : Nat} (hi : i + 2 < f.length) :
    byteAt (bareFrame f) i = byteAt f i := by
  rw [byteAt, bareFrame, List.getD_eq_getElem?_getD, List.getElem?_take_of_lt (by omega)]
  rfl

/-- R60: the APDU of a frame is what follows the PCB in the bare frame. -/
theorem apdu_eq_drop_bareFrame (f : Bytes) : apdu f = (bareFrame f).drop 1 := by
  rw [apdu, slice, bareFrame, List.drop_take]
  congr 1

section

variable {f g : Bytes} (h : SameBare f g)

include h

theorem sameBare_byteAt {i : Nat} (hi : i + 2 < f.length) : byteAt f i = byteAt g i := by
  rw [← byteAt_bareFrame hi, h.bare, byteAt_bareFrame (h.length ▸ hi)]

theorem sameBare_apdu : apdu f = apdu g := by
  rw [apdu_eq_drop_bareFrame, h.bare, ← apdu_eq_drop_bareFrame]

theorem sameBare_isIBlock : isIBlock f = isIBlock g := by
  by_cases hl : 3 ≤ f.length
  · simp only [isIBlock, sameBare_byteAt h (i := 0) hl, h.length]
  · simp [isIBlock, hl, ← h.length]

theorem sameBare_ins : ins? f = ins? g := by
  by_cases hl : 5 ≤ f.length
  · simp only [ins?, sameBare_byteAt h (i := 2) hl, h.length]
  · simp [ins?, hl, ← h.length]

theorem sameBare_fid : fid? f = fid? g := by
  by_cases hl : 10 ≤ f.length
  · simp only [fid?, sameBare_byteAt h (i := 6) (by omega), sameBare_byteAt h (i := 7) hl, h.length]
  · simp [fid?, hl, ← h.length]

/-- R53: the PCB of an I-block is not one of its CRC bytes. -/
theorem sameBare_pcb (hi : isIBlock f = true) : byteAt f 0 = byteAt g 0 :=
  sameBare_byteAt h (three_le_of_isIBlock hi)

theorem sameBare_nsOf (hi : isIBlock f = true) : nsOf f = nsOf g := by
  rw [nsOf, nsOf, sameBare_pcb h hi]

/-- A pattern that asks for a length reads the frame only if it has that length. -/
theorem sameBare_length_and {n : Nat} {x y : Bool} (hxy : f.length = n → x = y) :
    (f.length == n && x) = (g.length == n && y) := by
  by_cases hl : f.length = n
  · rw [hxy hl, h.length]
  · rw [← h.length, beq_eq_false_iff_ne.mpr hl, Bool.false_and, Bool.false_and]

/-- R55: PARAM is the third byte of five. -/
theorem sameBare_addressed (hl : f.length = 5) : addressed f = addressed g := by
  rw [addressed, addressed, sameBare_byteAt h (by omega)]

/-- R64: no pattern reads a CRC byte. -/
theorem sameBare_rowPattern (c : Cfg) (r : FrameClass) : rowPattern c r f = rowPattern c r g := by
  have hfirst {n : Nat} (hn : 3 ≤ n) (hl : f.length = n) : byteAt f 0 = byteAt g 0 :=
    sameBare_byteAt h (by omega)
  cases r with
  | wupb =>
    simp only [rowPattern, patWupb, Bool.and_assoc]
    exact sameBare_length_and h fun hl => by rw [hfirst (by decide) hl, sameBare_addressed h hl]
  | reqb =>
    simp only [rowPattern, patReqb, Bool.and_assoc]
    exact sameBare_length_and h fun hl => by rw [hfirst (by decide) hl, sameBare_addressed h hl]
  | attrib => exact sameBare_length_and h fun hl => by rw [hfirst (by decide) hl]
  | reset => exact sameBare_length_and h fun hl => by rw [hfirst (by decide) hl]
  | wtxack => exact sameBare_length_and h fun hl => by rw [hfirst (by decide) hl]
  | halt => exact sameBare_length_and h fun hl => by rw [hfirst (by decide) hl]
  | select => simp only [rowPattern, patSelect, sameBare_isIBlock h, sameBare_ins h]
  | readRecord => simp only [rowPattern, patRead, sameBare_isIBlock h, sameBare_ins h]
  | getData =>
    simp only [rowPattern, patGetData, sameBare_isIBlock h, sameBare_ins h, sameBare_apdu h]
  | iblock => exact sameBare_isIBlock h
  | unknown => rfl

theorem sameBare_classify (c : Cfg) : classify c f = classify c g := by
  simp only [classify, sameBare_rowPattern h]

end

/-! ### Answers that differ in the kept copies only -/

/-- The answers of two rules, from the states in which the dispatch has recorded one frame and the other,
are the same but for the kept copies. -/
def BareAlike (cls : FrameClass) (f g : Bytes) (s : State) (k k' : State → Result) : Prop :=
  bareResult s (k (s.emit (.log (.rx f cls s.cardState))))
    = bareResult s (k' (s.emit (.log (.rx g cls s.cardState))))

section

variable {f g : Bytes} (h : SameBare f g) (cls : FrameClass) (s : State)

include h

/-- R94. -/
theorem bareAlike_unrecognised :
    BareAlike cls f g s (fun s1 => .next (unrecognisedRule cls f s1))
      (fun s1 => .next (unrecognisedRule cls g s1)) := by
  simp [BareAlike, bareResult, newOutputs, unrecognisedRule_eq, emit_eq, bareError, h.bare]

/-- R98. -/
theorem bareAlike_selectMiss (hi : isIBlock f = true) (id : Option (Byte × Byte)) :
    BareAlike cls f g s (fun s1 => .next (selectMissRule id f s1))
      (fun s1 => .next (selectMissRule id g s1)) := by
  have hg : isIBlock g = true := sameBare_isIBlock h ▸ hi
  simp [BareAlike, bareResult, newOutputs, selectMissRule_eq _ _ _ hi, selectMissRule_eq _ _ _ hg,
    emit_eq, sameBare_pcb h hi, sameBare_nsOf h hi, h.bare]

/-- R97. -/
theorem bareAlike_selectHit (hi : isIBlock f = true) (id : Byte × Byte) (k : Nat) (e : FileEntry) :
    BareAlike cls f g s (fun s1 => .next (selectHitRule id k e f s1))
      (fun s1 => .next (selectHitRule id k e g s1)) := by
  have hg : isIBlock g = true := sameBare_isIBlock h ▸ hi
  simp [BareAlike, bareResult, newOutputs, selectHitRule_eq _ _ _ _ _ hi, emit_eq,
    selectHitRule_eq _ _ _ _ _ hg, sameBare_pcb h hi, sameBare_nsOf h hi, h.bare]

/-- R97, R98: both frames name the same file. -/
theorem bareAlike_select (hi : isIBlock f = true) :
    BareAlike cls f g s (fun s1 => .next (selectRule f s1)) (fun s1 => .next (selectRule g s1)) := by
  unfold BareAlike selectRule
  rw [sameBare_fid h]
  cases fid? g with
  | none => exact bareAlike_selectMiss h cls s hi none
  | some id =>
    dsimp only [emit_cfg]
    cases fileAt s.cfg id with
    | none => exact bareAlike_selectMiss h cls s hi (some id)
    | some ke => exact bareAlike_selectHit h cls s hi id ke.1 ke.2

/-- R99: an answer of READ RECORD. -/
theorem bareAlike_readRecordAnswer (hi : isIBlock f = true) (p : Bytes) (ctx : FileContext) :
    BareAlike cls f g s (fun s1 => .next (readRecordAnswer (rawEntry p) ctx f s1))
      (fun s1 => .next (readRecordAnswer (rawEntry p) ctx g s1)) := by
  have hg : isIBlock g = true := sameBare_isIBlock h ▸ hi
  simp [BareAlike, bareResult, newOutputs, readRecordAnswer_eq _ _ _ _ hi, emit_eq,
    readRecordAnswer_eq _ _ _ _ hg, sameBare_pcb h hi, sameBare_nsOf h hi, h.bare]

/-- R99 with a record due. -/
theorem bareAlike_readDue (hi : isIBlock f = true) (n : Nat) (e : FileEntry) :
    BareAlike cls f g s (readDueRule n e f) (readDueRule n e g) := by
  have hans := bareAlike_readRecordAnswer h cls s hi
  unfold BareAlike readDueRule
  simp only [emit_cfg]
  cases e.records[n - 1]? with
  | none => exact hans _ _
  | some r =>
    dsimp only
    split
    · cases FileContext.awaiting (n + 1) with
      | none => rfl
      | some ctx => exact hans _ _
    · exact hans _ _

/-- R99. -/
theorem bareAlike_readRecord (hi : isIBlock f = true) :
    BareAlike cls f g s (readRecordRule f) (readRecordRule g) := by
  unfold BareAlike readRecordRule
  simp only [emit_fileContext, emit_selFile, emit_cfg]
  cases s.fileContext.due with
  | none =>
    have hans := fun p => bareAlike_readRecordAnswer h cls s hi p s.fileContext
    by_cases hsel : s.selFile = none
    · simp only [hsel, if_true]
      exact hans s.cfg.swFileNotFound
    · simp only [hsel, if_false]
      exact hans s.cfg.swNoMoreRecord
  | some n =>
    cases s.selFile.bind fun k => s.cfg.fileTable[k]? with
    | none => rfl
    | some e => exact bareAlike_readDue h cls s hi n e

/-- R101: the retained frame may differ, and the submitted APDU does not. -/
theorem bareAlike_iblock :
    BareAlike cls f g s (fun s1 => .next (iblockRule f s1)) (fun s1 => .next (iblockRule g s1)) := by
  simp [BareAlike, bareResult, newOutputs, iblockRule_eq, emit_eq, sameBare_apdu h, h.bare]

/-- R100. -/
theorem bareAlike_getData (hi : isIBlock f = true) :
    BareAlike cls f g s (fun s1 => .next (getDataRule f s1)) (fun s1 => .next (getDataRule g s1)) := by
  have hg : isIBlock g = true := sameBare_isIBlock h ▸ hi
  unfold BareAlike getDataRule
  simp only [emit_cfg, sameBare_apdu h]
  cases findGetData s.cfg (apdu g) with
  | none => exact bareAlike_iblock h cls s
  | some d =>
    simp [bareResult, newOutputs, getDataHitRule_eq _ _ _ hi, emit_eq,
      getDataHitRule_eq _ _ _ hg, sameBare_pcb h hi, sameBare_nsOf h hi, h.bare]

/-- R65: a row whose pattern holds does the same on both frames. -/
theorem bareAlike_rowRule {r : FrameClass} (hp : rowPattern s.cfg r f = true) :
    BareAlike cls f g s (rowRule r cls f) (rowRule r cls g) := by
  cases r with
  | wupb => simp [BareAlike, bareResult, newOutputs, rowRule, wupbRule_eq, emit_eq, h.bare]
  | reqb => simp [BareAlike, bareResult, newOutputs, rowRule, reqbRule_eq, emit_eq, h.bare]
  | attrib => simp [BareAlike, bareResult, newOutputs, rowRule, attribRule_eq, emit_eq, h.bare]
  | reset => simp [BareAlike, bareResult, newOutputs, rowRule, resetRule_eq, emit_eq, h.bare]
  | wtxack | halt | unknown => exact bareAlike_unrecognised h cls s
  | select => exact bareAlike_select h cls s (isIBlock_of_rowPattern (by simp) hp)
  | readRecord => exact bareAlike_readRecord h cls s (isIBlock_of_rowPattern (by simp) hp)
  | getData => exact bareAlike_getData h cls s (isIBlock_of_rowPattern (by simp) hp)
  | iblock => exact bareAlike_iblock h cls s

/-- R65: the table finds the same row for both frames. -/
theorem bareAlike_firstRow (rs : List FrameClass) :
    BareAlike cls f g s (firstRow rs cls f) (firstRow rs cls g) := by
  have hguard : ∀ (r : FrameClass) (o : Output), rowGuard r (s.emit o) = rowGuard r s := fun r _ => by
    cases r <;> rfl
  unfold BareAlike firstRow
  simp only [emit_cfg, hguard, ← sameBare_rowPattern h]
  cases hr : rs.find? fun r => rowPattern s.cfg r f && rowGuard r s with
  | none => exact bareAlike_unrecognised h cls s
  | some r =>
    have hpg := List.find?_some hr
    simp only [Bool.and_eq_true] at hpg
    exact bareAlike_rowRule h cls s hpg.1

/-- R85, R104: the dispatch of both frames answers alike if what is done in `Idle` and `Halted` does. -/
theorem bareResult_onFrame {k k' : State → Result} (hk : BareAlike cls f g s k k') :
    bareResult s (onFrame cls f s k) = bareResult s (onFrame cls g s k') := by
  have hwait : patWtxack f = patWtxack g := sameBare_rowPattern h s.cfg .wtxack
  by_cases hr : s.run = .running
  · cases hc : s.cardState with
    | noField =>
      rw [onFrame_noField _ hr hc, onFrame_noField _ hr hc]
      simp [bareResult, newOutputs, bareError, h.bare]
    | handleWtx =>
      rw [onFrame_wait _ hr hc, onFrame_wait _ hr hc, hwait]
      split <;> simp [bareResult, newOutputs, bareError, h.bare]
    | idle => rwa [onFrame_ready _ hr (.inl hc), onFrame_ready _ hr (.inl hc)]
    | halted => rwa [onFrame_ready _ hr (.inr hc), onFrame_ready _ hr (.inr hc)]
    | _ => simp only [onFrame, whenRunning_running hr, hc]
  · simp only [onFrame, whenRunning_terminated hr]

/-- R54 for a received frame. -/
theorem bareResult_priorityDispatch :
    bareResult s (priorityDispatch f s) = bareResult s (priorityDispatch g s) := by
  rw [priorityDispatch, priorityDispatch, sameBare_classify h]
  exact bareResult_onFrame h _ s (bareAlike_firstRow h _ s rows)

/-! ### The reply to a retained I-block -/

/-- R71: the PCB class is that of the first byte, which is no CRC byte of a frame of three bytes or more. -/
theorem sameBare_pcbClass (hl : 3 ≤ f.length) : pcbClass f = pcbClass g := by
  rw [pcbClass, pcbClass, sameBare_byteAt h (i := 0) hl, h.length]

/-- R75, R77: the frame reaches the entry by its PCB class only, and error code 5 as a copy. -/
theorem sameBare_finalize (hl : 3 ≤ f.length) (e : ResponseEntry) :
    (finalize e f).1 = (finalize e g).1
      ∧ (finalize e f).2.map bareOutput = (finalize e g).2.map bareOutput := by
  unfold finalize pcbStep
  rw [sameBare_pcbClass h hl]
  split
  · exact ⟨rfl, rfl⟩
  · cases pcbPrefix (pcbClass g) with
    | none => exact ⟨rfl, by simp [bareError, h.bare]⟩
    | some p => exact ⟨rfl, rfl⟩

/-- R82: the responses to both frames, outputs having been appended to those of `s`. -/
theorem bareResult_respond (hl : 3 ≤ f.length) (e : ResponseEntry) {u : State} {os : List Output}
    (hu : u.outs = s.outs ++ os) :
    bareResult s (.next (u.respond e f)) = bareResult s (.next (u.respond e g)) := by
  obtain ⟨hentry, hlogs⟩ := sameBare_finalize h hl e
  unfold State.respond State.recordNs
  dsimp only
  rw [hentry]
  split <;> simp [bareResult, newOutputs, hu, hlogs]

/-- R107 to R109: a reply reads the retained I-block only to answer it. -/
theorem bareResult_oracleReply (hl : 3 ≤ f.length) (id : Ident) (p : Bytes) :
    bareResult s (execOracleReply id p { s with lastIblock := some f })
      = bareResult s (execOracleReply id p { s with lastIblock := some g }) := by
  have hkept (os : List Output) :
      bareResult s (.next { s with lastIblock := some f, outs := s.outs ++ os })
        = bareResult s (.next { s with lastIblock := some g, outs := s.outs ++ os }) := by
    simp [bareResult, newOutputs, h.bare]
  unfold execOracleReply whenRunning
  dsimp only
  split
  · split
    · exact hkept [_]
    · split
      · exact hkept [_]
      · split
        · rfl
        · split
          · exact hkept [_]
          · exact bareResult_respond h s hl (rawEntry p) (List.append_assoc ..)
  · simpa using hkept []

end

/-- Settles O10: the patterns, the dispatch and the reply read no CRC byte. -/
theorem inboundCrcNeverRead : Obligations.InboundCrcNeverRead := by
  refine ⟨fun c f a b a' b' => sameBare_classify (sameBare_append f a b a' b') c,
    fun f a b a' b' s => ?_, fun f a b a' b' id p s hf => ?_⟩
  · rw [meaningIsPriorityTable, meaningIsPriorityTable]
    exact bareResult_priorityDispatch (sameBare_append f a b a' b') s
  · have hl : 3 ≤ (f ++ [a, b]).length := by
      have := List.length_pos_of_ne_nil hf
      simp only [List.length_append, List.length_cons, List.length_nil]
      omega
    exact bareResult_oracleReply (sameBare_append f a b a' b') s hl id p

end Sys2Proof.Proofs
end

section
/-! SUPPORT. The codec on every byte string: `finalize` (R75 to R78), the CRC of a string that carries its
CRC (R73, R74), and the absence of unknown PCBs in a session (R84). -/

namespace Sys2Proof.Proofs

open Sys2Proof Sys2Proof.Machine

/-! ### The residue of CRC_B

One bit of the CRC is linear over exclusive or, and a zero bit that falls out is a plain shift. Folding in
the first CRC byte of a string makes the low byte of the register `FF`, so that eight bits leave the high
byte, shifted down, under a constant; folding in the second CRC byte cancels what is left of the string. -/

/-- R73: the eight bits of a byte. -/
theorem crcByte_eq_iterate (r : Word16) (x : Byte) :
    crcByte r x = crcBit^[8] (r ^^^ x.setWidth 16) := rfl

/-- What the bit that falls out of the register folds in (R73): the reflected polynomial, or nothing. -/
def foldedPoly (out : Bool) : Word16 := if out then 0x8408 else 0

theorem foldedPoly_xor (a b : Bool) : foldedPoly (a ^^ b) = foldedPoly a ^^^ foldedPoly b := by
  revert a b; decide

/-- R73: the polynomial comes in exactly when the bit that falls out is a one. -/
theorem crcBit_eq (r : Word16) :
    crcBit r = (r >>> 1) ^^^ foldedPoly r[0] := by
  have hbit : r &&& 1#16 = 0#16 ↔ r[0] = false := by
    rw [BitVec.and_one_eq_setWidth_ofBool_getLsbD, BitVec.getLsbD_eq_getElem (by decide)]
    cases r[0] <;> decide
  cases h : r[0] <;> simp [crcBit, foldedPoly, hbit, h]

theorem crcBit_xor (a b : Word16) : crcBit (a ^^^ b) = crcBit a ^^^ crcBit b := by
  simp only [crcBit_eq, BitVec.ushiftRight_xor_distrib, BitVec.getElem_xor, foldedPoly_xor]
  ac_rfl

theorem crcBit_iterate_xor (n : Nat) (a b : Word16) :
    crcBit^[n] (a ^^^ b) = crcBit^[n] a ^^^ crcBit^[n] b := by
  induction n generalizing a b with
  | zero => rfl
  | succ n ih => simp only [Function.iterate_succ_apply, crcBit_xor, ih]

/-- Zero bits that fall out are a plain shift. -/
theorem crcBit_iterate_of_low_zero (n : Nat) (r : Word16)
    (h : ∀ i < n, r.getLsbD i = false) : crcBit^[n] r = r >>> n := by
  induction n generalizing r with
  | zero => simp
  | succ n ih =>
    have hbit : crcBit r = r >>> 1 := by
      simp [crcBit_eq, foldedPoly, ← BitVec.getLsbD_eq_getElem, h 0 n.succ_pos]
    rw [Function.iterate_succ_apply, hbit, ih, ← BitVec.shiftRight_add, Nat.add_comm]
    intro i hi
    simpa [Nat.add_comm] using h (i + 1) (by omega)

/-- The first CRC byte complements the low byte of the register, which becomes `FF`. -/
theorem xor_lo8_compl (r : Word16) :
    r ^^^ (lo8 (r ^^^ 0xFFFF)).setWidth 16 = (r &&& 0xFF00) ^^^ 0x00FF := by
  ext i hi
  interval_cases i <;> simp [lo8]

/-- The second CRC byte complements the high byte, shifted down. -/
theorem setWidth_hi8_compl (r : Word16) :
    (hi8 (r ^^^ 0xFFFF)).setWidth 16 = (r >>> 8) ^^^ 0x00FF := by
  ext i hi
  interval_cases i <;> simp [hi8]

/-- The register after the first CRC byte. -/
theorem crcByte_lo8_compl (r : Word16) :
    crcByte r (lo8 (r ^^^ 0xFFFF)) = (r >>> 8) ^^^ crcBit^[8] 0x00FF := by
  have hlow : ∀ i < 8, (r &&& 0xFF00).getLsbD i = false := by
    intro i hi
    interval_cases i <;> simp
  have hhigh : (r &&& 0xFF00) >>> 8 = r >>> 8 := by
    ext i hi
    interval_cases i <;> simp
  rw [crcByte_eq_iterate, xor_lo8_compl, crcBit_iterate_xor,
    crcBit_iterate_of_low_zero 8 _ hlow, hhigh]

/-- The register after both CRC bytes no longer depends on the string. -/
theorem crcByte_lo8_hi8_compl (r : Word16) :
    crcByte (crcByte r (lo8 (r ^^^ 0xFFFF))) (hi8 (r ^^^ 0xFFFF)) = 0xF0B8 := by
  rw [crcByte_lo8_compl, crcByte_eq_iterate, setWidth_hi8_compl]
  have hcancel : ((r >>> 8) ^^^ crcBit^[8] 0x00FF) ^^^ ((r >>> 8) ^^^ 0x00FF)
      = crcBit^[8] 0x00FF ^^^ 0x00FF := by
    rw [BitVec.xor_comm (r >>> 8), BitVec.xor_assoc, ← BitVec.xor_assoc (r >>> 8), BitVec.xor_self,
      BitVec.zero_xor]
  rw [hcancel]
  decide

/-- Settles O14: the register after a string and its CRC is the same for every string. -/
theorem crcOfCheckedStringIsResidue : Obligations.CrcOfCheckedStringIsResidue := by
  intro d
  have hreg : crc16b (crcFrame d) = 0xF0B8 ^^^ 0xFFFF := by
    rw [← crcByte_lo8_hi8_compl (d.foldl crcByte 0xFFFF)]
    simp only [crc16b, crcFrame, crcBytes, List.foldl_append, List.foldl_cons, List.foldl_nil]
  rw [crcBytes, hreg]
  decide

/-! ### Finalizing an entry -/

/-- R77, R129 for a payload that answers an I-block. -/
theorem finalize_raw_iblock (p : Bytes) {f : Bytes} (h : isIBlock f = true) :
    finalize (rawEntry p) f = (⟨crcFrame (byteAt f 0 :: p), true, true⟩, []) := by
  simp only [finalize, pcbStep_iblock p f h, crcStep_raw]

/-- Settles O12, the statement writing out the frame and its CRC. -/
theorem finalizePrefixesThenChecks : Obligations.FinalizePrefixesThenChecks :=
  fun p _ h => finalize_raw_iblock p h

/-- R71: a frame, empty or not, that begins with no known PCB. -/
theorem pcbClass_eq_unknown {f : Bytes} (h2 : f.head? ≠ some 0x02) (h3 : f.head? ≠ some 0x03)
    (h5 : f.head? ≠ some 0x05) : pcbClass f = .unknown := by
  cases f with
  | nil => rfl
  | cons b f =>
    simp only [List.head?_cons, ne_eq, Option.some.injEq] at h2 h3 h5
    simp only [pcbClass, byteAt, List.length_cons, Nat.succ_ne_zero, List.getD_cons_zero, if_false,
      h2, h3, h5]

/-- Settles O13: the PCB step leaves the raw payload alone, and the CRC step does not. -/
theorem unknownPcbLeavesUnprefixed : Obligations.UnknownPcbLeavesUnprefixed := by
  intro p f h2 h3 h5
  have hnone : pcbPrefix (pcbClass f) = none := by rw [pcbClass_eq_unknown h2 h3 h5]; rfl
  rw [finalize, pcbStep_unknown _ f rfl hnone]
  rfl

/-- R75: the PCB step leaves an entry alone that has its PCB, or whose frame gives it none. -/
theorem pcbStep_entry_of_settled {e : ResponseEntry} {f : Bytes}
    (h : e.pcbDone = true ∨ pcbPrefix (pcbClass f) = none) : (pcbStep e f).1 = e := by
  unfold pcbStep
  split
  · rfl
  next hd => rw [h.resolve_left hd]

/-- R75: after the PCB step the entry has its PCB, unless the frame gives none. -/
theorem pcbStep_settles (e : ResponseEntry) (f : Bytes) :
    (pcbStep e f).1.pcbDone = true ∨ pcbPrefix (pcbClass f) = none := by
  unfold pcbStep
  split
  next hd => exact .inl hd
  next =>
    split
    · exact .inl rfl
    next hn => exact .inr hn

/-- R78 for the whole entry, flags included. -/
theorem finalize_finalize (e : ResponseEntry) (f : Bytes) :
    (finalize (finalize e f).1 f).1 = (finalize e f).1 := by
  have hpcb : (pcbStep (finalize e f).1 f).1 = (finalize e f).1 :=
    pcbStep_entry_of_settled (by rw [finalize, crcStep_pcbDone]; exact pcbStep_settles e f)
  calc (finalize (finalize e f).1 f).1
      = crcStep (pcbStep (finalize e f).1 f).1 := rfl
    _ = crcStep (finalize e f).1 := by rw [hpcb]
    _ = (finalize e f).1 := crcStep_done _ (crcStep_crcDone _)

/-- Settles O11: neither step of `finalize` changes an entry that is finalized. -/
theorem finalizeIsIdempotent : Obligations.FinalizeIsIdempotent :=
  fun e f => congrArg ResponseEntry.payload (finalize_finalize e f)

/-! ### Sessions meet no unknown PCB -/

/-- R84: only the answer to the retained frame could log error code 5, and that frame is an I-block. -/
theorem effect_noUnknownPcb {e : Event} {s t : State} (he : Effect e s t)
    (hkept : ∀ b, s.lastIblock = some b → isIBlock b = true) (f : Bytes) :
    Appends (fun o => o ≠ .log (.error (.unknownPcb f))) s t := by
  cases he with
  | same => exact appends_refl _ _
  | frameLogged g cls os _ hos => exact ⟨_, rfl, by rcases hos with rfl | rfl <;> simp⟩
  | replyLogged id p l _ hl => exact ⟨_, rfl, by rcases hl with rfl | ⟨rfl, -⟩ <;> simp⟩
  | reply id p b r _ hw hr hid hb =>
    refine ⟨_, replyRule_outs id p b s, ?_⟩
    rw [finalize_raw_iblock p (hkept b hb)]
    simp
  | exit _ reason os _ hr hos => exact ⟨_, rfl, by rcases hos with rfl | rfl <;> simp⟩
  | _ => exact ⟨_, rfl, by simp⟩

/-- Settles O56: R36 item 6 makes the retained frame an I-block. -/
theorem unknownPcbNeverLogged : Obligations.UnknownPcbNeverLogged := by
  intro s t h hs f hmem
  have hkept : ∀ b, s.lastIblock = some b → isIBlock b = true := fun b hb => by
    simpa [isIBlock] using h.consistent.iblockKept b hb
  obtain rfl | ⟨e, es, -, he⟩ := step_effect_of_event hs
  · simp [newOutputs] at hmem
  · exact newOutputs_of_appends (s := { s with inputs := es }) (effect_noUnknownPcb he hkept f)
      _ hmem rfl

end Sys2Proof.Proofs
end

section
/-! SUPPORT. The link-level instructions (R86 to R94), and what they say of `NoField` (R86, R125). -/

namespace Sys2Proof.Proofs

open Sys2Proof Sys2Proof.Machine

/-! ### Frames that come to no row -/

/-- R19: the stable states, with the two in which the table is consulted (R85) last. -/
theorem stable_cases {v : CardState} (h : v.stable = true) :
    v = .noField ∨ v = .handleWtx ∨ v = .idle ∨ v = .halted := by
  cases v <;> simp [CardState.stable] at h ⊢

/-- `Idle` and `Halted` are stable (R19). -/
theorem stable_of_ready {v : CardState} (h : v = .idle ∨ v = .halted) : v.stable = true := by
  rcases h with rfl | rfl <;> rfl

/-- R94, R104: in a stable state a frame that comes to no row is recorded and unrecognised, unless it
acknowledges a WTX wait. -/
theorem onFrame_onlyLogged {cls : FrameClass} {f : Bytes} {s : State} {k : State → Result}
    (hr : s.run = .running) (hs : s.cardState.stable = true)
    (hw : s.cardState = .handleWtx → patWtxack f = false)
    (hk : (s.cardState = .idle ∨ s.cardState = .halted) →
      k (s.emit (.log (.rx f cls s.cardState)))
        = .next (unrecognisedRule cls f (s.emit (.log (.rx f cls s.cardState))))) :
    onFrame cls f s k = .next { s with
      outs := s.outs ++
        [.log (.rx f cls s.cardState), .log (.error (.unrecognized f cls s.cardState))] } := by
  rcases stable_cases hs with hn | hc | hc
  · rw [onFrame_noField k hr hn, hn]
  · rw [onFrame_wait k hr hc, hw hc, hc, if_neg Bool.false_ne_true]
  · rw [onFrame_ready k hr hc, hk hc, unrecognisedRule_eq]
    simp [emit_eq]

/-- R65: recording a frame changes no guard. -/
@[simp] theorem rowGuard_emit (r : FrameClass) (s : State) (o : Output) :
    rowGuard r (s.emit o) = rowGuard r s := by
  cases r <;> rfl

/-- Settles O28: the frame's instruction is its dispatch by the table, which comes to no row. -/
theorem frameWithoutRowOnlyLogged : Obligations.FrameWithoutRowOnlyLogged := by
  intro f s hr h
  rw [meaningIsPriorityTable f s]
  rcases h with hn | ⟨hc, hrows⟩
  · exact onFrame_onlyLogged hr (by rw [hn]; rfl) (by simp [hn]) (by simp [hn])
  · refine onFrame_onlyLogged hr (stable_of_ready hc) (by rcases hc with hc | hc <;> simp [hc])
      fun _ => firstRow_of_none fun r hm => ?_
    rw [rowGuard_emit, emit_cfg]
    cases hp : rowPattern s.cfg r f with
    | false => exact .inl rfl
    | true => exact .inr (hrows r hm hp)

/-! ### `NoField` is left by a field detection only -/

/-- R86, R125: an effect leaves `card_state` alone, or takes `NoField` away on FIELD ON, or takes another
state to one that is not `NoField` either. -/
theorem effect_noField {e : Event} {s t : State} (h : Effect e s t) :
    t.cardState = s.cardState
    ∨ (t.cardState ≠ .noField ∧ (e = .fieldOn ∨ s.cardState ≠ .noField)) := by
  have hready (hc : s.cardState = .idle ∨ s.cardState = .halted) : s.cardState ≠ .noField := by
    rcases hc with hc | hc <;> simp [hc]
  cases h with
  | same | frameLogged | replyLogged | elapsed | exit => exact .inl rfl
  | fieldOn => exact .inr ⟨by simp, .inl rfl⟩
  | ok f path _ ha hc => exact .inr ⟨by simp, .inr (hready (.inl hc))⟩
  | reply id p b r _ hw =>
    obtain ⟨n, os, heq⟩ := replyRule_frame id p b s
    exact .inr ⟨by simp [heq], .inr (by simp [hw])⟩
  | atqb | reset | selectHit | selectMiss | readRecord | getData | iblock =>
    exact .inr ⟨by simp, .inr (hready ‹_›)⟩

/-- Settles O57: a step waits, or has the effect of its event on `card_state`. -/
theorem noFieldLeftOnlyByField : Obligations.NoFieldLeftOnlyByField := by
  intro s t hs
  obtain rfl | ⟨e, es, hi, he⟩ := step_effect_of_event hs
  · exact ⟨id, absurd⟩
  · rcases effect_noField he with hsame | ⟨ht, hfield | hleft⟩
    · dsimp only at hsame
      rw [hsame]
      exact ⟨id, absurd⟩
    · exact ⟨fun _ => ht, fun _ _ => ⟨es, by rw [hi, hfield]⟩⟩
    · exact ⟨fun _ => ht, fun hn => absurd hn hleft⟩

/-! ### Events that are no frame, and terminated machines -/

/-- Settles O4: every instruction's meaning begins with the check of `run`. -/
theorem terminatedAbsorbsEverything : Obligations.TerminatedAbsorbsEverything :=
  fun i _ h => exec_terminated h i

/-- Settles O18: a running machine comes to the branch of R86 on `NoField`. -/
theorem fieldOnEntersIdle : Obligations.FieldOnEntersIdle := by
  intro s hr
  dsimp only [exec, execFieldOn]
  rw [whenRunning_running hr]
  exact ⟨fun hn => if_pos hn, fun hn => if_neg hn⟩

/-- Settles O19: running or terminated, the state is answered as it is. -/
theorem rxNoneChangesNothing : Obligations.RxNoneChangesNothing := by
  intro s
  by_cases hr : s.run = .running
  · exact whenRunning_running hr _
  · exact exec_terminated hr .rxNone

/-! ### The frames of the link level

Where the row of the frame fires, the answer is the row's rule after the recording of the frame; where it
does not, no row does. -/

/-- Settles O20, by the guard of row 1. -/
theorem wupbSendsAtqb : Obligations.WupbSendsAtqb := by
  intro afi param c0 c1 s hr hc
  dsimp only [exec, execWupb]
  have hg (o : Output) : guardWupb (s.emit o) = !s.active := by
    rcases hc with hc | hc <;> simp [guardWupb, hc]
  refine ⟨fun ha => ?_, fun ha => ?_⟩
  · rw [onFrame_ready _ hr hc, hg, ha, Bool.not_false, if_pos rfl, wupbRule_eq]
    simp [emit_eq, wupbFrame, ha]
  · refine onFrame_onlyLogged hr (stable_of_ready hc) (fun _ => rfl) fun _ => ?_
    rw [hg, ha, Bool.not_true, if_neg Bool.false_ne_true]

/-- Settles O21, by the guard of row 2. -/
theorem reqbSendsAtqb : Obligations.ReqbSendsAtqb := by
  intro afi param c0 c1 s hr
  dsimp only [exec, execReqb]
  refine ⟨fun hc ha => ?_, fun h => ?_⟩
  · have hg (o : Output) : guardReqb (s.emit o) = true := by simp [guardReqb, hc, ha]
    rw [onFrame_ready _ hr (.inl hc), hg, if_pos rfl, reqbRule_eq]
    simp [emit_eq, reqbFrame, hc]
  · have hc : s.cardState = .idle ∨ s.cardState = .halted := h.symm.imp_left And.left
    have hg (o : Output) : guardReqb (s.emit o) = false := by
      rcases h with hh | ⟨-, ha⟩
      · simp [guardReqb, hh]
      · simp [guardReqb, ha]
    refine onFrame_onlyLogged hr (stable_of_ready hc) (fun _ => rfl) fun _ => ?_
    rw [hg, if_neg Bool.false_ne_true]

/-- R65: in `Halted` and not active none of the I-block rows can fire. -/
theorem firstRow_halted_inactive {s : State} (hc : s.cardState = .halted) (ha : s.active = false)
    (cls : FrameClass) (f : Bytes) :
    firstRow [.select, .readRecord, .getData, .iblock] cls f s
      = .next (unrecognisedRule cls f s) := by
  have hg : rowGuard .select s = false := by simp [rowGuard, guardSelect, hc, ha]
  rw [firstRow_cons, hg, Bool.and_false, if_neg Bool.false_ne_true,
    firstRow_inactive ha (by simp)]

/-- Settles O22, by the guard of row 3; in `Halted` the later rows fail too. -/
theorem attribSendsOk : Obligations.AttribSendsOk := by
  intro first rest s hr ha
  dsimp only [exec, execAttrib]
  refine ⟨fun hc => ?_, fun hc => ?_⟩
  · have hg (o : Output) : guardAttrib (s.emit o) = true := by simp [guardAttrib, hc, ha]
    rw [onFrame_ready _ hr (.inl hc), hg, if_pos rfl, attribRule_eq]
    simp [emit_eq, attribFrame, hc]
  · have hg (o : Output) : guardAttrib (s.emit o) = false := by simp [guardAttrib, hc]
    rw [← hc]
    refine onFrame_onlyLogged hr (stable_of_ready (.inr hc)) (by simp [hc]) fun _ => ?_
    rw [hg, if_neg Bool.false_ne_true, firstRow_halted_inactive (by exact hc) (by exact ha)]

/-- Settles O24: row 4 has no guard, and is consulted in `Idle` and `Halted` only. -/
theorem resetClearsFileContext : Obligations.ResetClearsFileContext := by
  intro c0 c1 s hr
  dsimp only [exec, execReset]
  refine ⟨fun hc => ?_, fun hc => ?_⟩
  · rw [onFrame_ready _ hr hc, resetRule_eq]
    simp [emit_eq, resetFrame]
  · exact onFrame_onlyLogged hr (by rcases hc with hc | hc <;> rw [hc] <;> rfl) (fun _ => rfl)
      (by rcases hc with hc | hc <;> simp [hc])

/-- Settles O25: the acknowledgement is silent during the wait only. -/
theorem wtxackOnlyRecorded : Obligations.WtxackOnlyRecorded := by
  intro m c0 c1 s hr
  dsimp only [exec, execWtxack]
  refine ⟨fun hw => ?_, fun hc => ?_⟩
  · have hp : patWtxack (wtxackFrame m c0 c1) = true := rfl
    rw [onFrame_wait _ hr hw, hp, if_pos rfl]
    rfl
  · exact onFrame_onlyLogged hr (by rcases hc with hc | hc | hc <;> rw [hc] <;> rfl)
      (by rcases hc with hc | hc | hc <;> simp [hc]) fun _ => rfl

/-- Settles O26: HALT's frame comes to no row and is no acknowledgement. -/
theorem haltHasNoTransition : Obligations.HaltHasNoTransition := by
  intro u c0 c1 s hr hs f
  dsimp only [exec, execHalt]
  exact onFrame_onlyLogged (f := f) hr hs (fun _ => rfl) fun _ => rfl

end Sys2Proof.Proofs
end

section
/-! SUPPORT. The APDU commands (R97 to R101) and what they look up in the configuration's tables, and the
configuration check (R95, ruling I5) with the sessions it admits (R126). -/

namespace Sys2Proof.Proofs

open Sys2Proof Sys2Proof.Machine

/-! ### The first entry of a table -/

/-- R97: the lookup answers the entry that no earlier entry with the id precedes. -/
theorem fileAt_eq_some {c : Cfg} {id : Byte × Byte} {k : Nat} {e : FileEntry}
    (hk : c.fileTable[k]? = some e) (he : e.fid = [id.1, id.2])
    (hfirst : ∀ j e', j < k → c.fileTable[j]? = some e' → e'.fid ≠ [id.1, id.2]) :
    fileAt c id = some (k, e) := by
  obtain ⟨hlt, hget⟩ := List.getElem?_eq_some_iff.mp hk
  have hfind : findFile c id = some k := by
    refine List.findIdx?_eq_some_iff_getElem.mpr ⟨hlt, by simp [hget, he], fun j hj => ?_⟩
    simpa using hfirst j _ hj (List.getElem?_eq_getElem (hj.trans hlt))
  simp [fileAt, hfind, hk]

/-- R98: the lookup of an id that no entry has. -/
theorem fileAt_eq_none {c : Cfg} {id : Byte × Byte}
    (h : ∀ e ∈ c.fileTable, e.fid ≠ [id.1, id.2]) : fileAt c id = none := by
  have hfind : findFile c id = none := by
    simpa [findFile, List.findIdx?_eq_none_iff] using h
  simp [fileAt, hfind]

/-- R100: the lookup answers the entry that no earlier entry with the key precedes. -/
theorem findGetData_eq_some {c : Cfg} {a : Bytes} {j : Nat} {g : GetDataEntry}
    (hj : c.getDataTable[j]? = some g) (hg : g.apdu = a)
    (hfirst : ∀ j' g', j' < j → c.getDataTable[j']? = some g' → g'.apdu ≠ a) :
    findGetData c a = some g := by
  obtain ⟨hlt, hget⟩ := List.getElem?_eq_some_iff.mp hj
  refine List.find?_eq_some_iff_getElem.mpr ⟨by simp [hg], j, hlt, hget, fun i hi => ?_⟩
  simpa using hfirst i _ hi (List.getElem?_eq_getElem (hi.trans hlt))

/-! ### A frame whose row fires -/

/-- R65, R85: in `Idle` or `Halted`, with the guard of its row true, a frame is recorded and the row's
rule answers. -/
theorem onFrame_fires {cls : FrameClass} {f : Bytes} {s : State} {guard : State → Bool}
    {rule later : State → Result} (hr : s.run = .running)
    (hc : s.cardState = .idle ∨ s.cardState = .halted)
    (hg : guard (s.emit (.log (.rx f cls s.cardState))) = true) :
    onFrame cls f s (fun s1 => if guard s1 then rule s1 else later s1)
      = rule (s.emit (.log (.rx f cls s.cardState))) := by
  rw [onFrame_ready _ hr hc, if_pos hg]

/-- R65: the guard of row 7 in the states in which SELECT is answered. -/
theorem guardSelect_of_ready {s : State}
    (h : s.cardState = .idle ∨ (s.cardState = .halted ∧ s.active = true)) : guardSelect s = true := by
  rcases h with hc | ⟨-, ha⟩
  · simp [guardSelect, hc]
  · simp [guardSelect, ha]

/-- R65: the guard of row 8 with a file context. -/
theorem guardRead_of_context {s : State} (ha : s.active = true) (h : s.fileContext ≠ .none) :
    guardRead s = true := by
  simp [guardRead, ha, h]

/-! ### SELECT -/

/-- R98: a SELECT too short to hold an id. -/
theorem selectRule_short {f : Bytes} {s : State} (hf : fid? f = none) :
    selectRule f s = selectMissRule none f s := by
  simp only [selectRule, hf]

/-- R98: a SELECT of an unknown file. -/
theorem selectRule_miss {f : Bytes} {s : State} {id : Byte × Byte} (hf : fid? f = some id)
    (hid : fileAt s.cfg id = none) : selectRule f s = selectMissRule (some id) f s := by
  simp only [selectRule, hf, hid]

/-- Settles O29: row 7 fires, and the lookup by id finds the entry. -/
theorem selectOpensKnownFile : Obligations.SelectOpensKnownFile := by
  intro ns cla p1 p2 lc d0 d1 c0 c1 tail k e s hr hc hk he hfirst f
  have hfile : fileAt s.cfg (d0, d1) = some (k, e) := fileAt_eq_some hk he hfirst
  dsimp only [exec, execSelect, selectFrame]
  rw [onFrame_fires hr (hc.imp_right And.left) (guardSelect_of_ready (by exact hc)),
    selectRule_hit (iFrame_fid ..) (by exact hfile), selectHitRule_eq _ _ _ _ _ (iFrame_isIBlock ..)]
  simp [emit_eq, f]

/-- Settles O30: row 7 fires, and there is no id, or the lookup by id finds nothing. -/
theorem selectMissesUnknownFile : Obligations.SelectMissesUnknownFile := by
  intro ns cla c0 c1 body s hr hc f answer
  have hanswer (id : Option (Byte × Byte)) :
      selectMissRule id f (s.emit (.log (.rx f .select s.cardState))) = answer id := by
    rw [selectMissRule_eq _ _ _ (iFrame_isIBlock ..)]
    simp [emit_eq, f, answer]
  dsimp only [exec, execSelect, selectFrame]
  rw [onFrame_fires hr (hc.imp_right And.left) (guardSelect_of_ready (by exact hc))]
  refine ⟨fun hshort => ?_, fun p1 p2 lc d0 d1 tail hbody hnone => ?_⟩
  · rw [selectRule_short (iFrame_fid_short _ _ _ _ _ _ hshort), hanswer]
  · have hid : fid? f = some (d0, d1) := by simp only [f, hbody, iFrame_fid]
    rw [selectRule_miss hid (by exact fileAt_eq_none hnone), hanswer]

/-! ### READ RECORD -/

/-- R99: a record is due of the selected file. -/
theorem readRecordRule_due {f : Bytes} {s : State} {n k : Nat} {e : FileEntry}
    (hd : s.fileContext.due = some n) (hk : s.selFile = some k) (he : s.cfg.fileTable[k]? = some e) :
    readRecordRule f s = readDueRule n e f s := by
  simp only [readRecordRule, hd, hk, Option.bind_some, he]

/-- R99: no record is due, and the error sent tells whether a file is selected. -/
theorem readRecordRule_invalid {f : Bytes} {s : State} (h : s.fileContext = .invalid) :
    readRecordRule f s = .next (readRecordAnswer
      (rawEntry (if s.selFile = none then s.cfg.swFileNotFound else s.cfg.swNoMoreRecord))
      .invalid f s) := by
  simp only [readRecordRule, h, FileContext.due]
  split <;> rfl

section

variable {n : Nat} {e : FileEntry} {r f : Bytes} {s : State}

/-- R99: the record due has a successor. -/
theorem readDueRule_before_last {ctx : FileContext} (hrec : e.records[n - 1]? = some r)
    (hlt : n < e.records.length) (hctx : FileContext.awaiting (n + 1) = some ctx) :
    readDueRule n e f s = .next (readRecordAnswer (rawEntry r) ctx f s) := by
  simp only [readDueRule, hrec, if_pos hlt, hctx, entryRec]

/-- R99: the record due is the last. -/
theorem readDueRule_last (hrec : e.records[n - 1]? = some r) (hn : n = e.records.length) :
    readDueRule n e f s = .next (readRecordAnswer (rawEntry r) .invalid f s) := by
  simp only [readDueRule, hrec, if_neg hn.not_lt, entryRec]

/-- R99: the file does not have the record due. -/
theorem readDueRule_past (hrec : e.records[n - 1]? = none) :
    readDueRule n e f s = .next (readRecordAnswer (rawEntry s.cfg.swNoMoreRecord) .invalid f s) := by
  simp only [readDueRule, hrec, entryNmr]

end

/-- R22: a record that is due has a positive number, and its context is not `None`. -/
theorem due_some {v : FileContext} {n : Nat} (h : v.due = some n) : 1 ≤ n ∧ v ≠ .none := by
  cases v with
  | none | invalid => cases h
  | awaitingFirst | awaitingSecond | awaitingThird =>
    cases h
    exact ⟨by omega, nofun⟩

/-- Settles O31: row 8 fires, and every answer of its rule is a payload sent and a context left. -/
theorem readRecordSendsRecordDue : Obligations.ReadRecordSendsRecordDue := by
  intro ns cla c0 c1 body s hr hc ha f answer
  have hanswer (ctx : FileContext) (p : Bytes) :
      readRecordAnswer (rawEntry p) ctx f (s.emit (.log (.rx f .readRecord s.cardState)))
        = answer ctx p := by
    rw [readRecordAnswer_eq _ _ _ _ (iFrame_isIBlock ..)]
    simp [emit_eq, f, answer]
  have hfires (hctx : s.fileContext ≠ .none) : exec (.readRecord ns cla body c0 c1) s
      = readRecordRule f (s.emit (.log (.rx f .readRecord s.cardState))) :=
    onFrame_fires hr hc (guardRead_of_context (by exact ha) (by exact hctx))
  refine ⟨fun n k e hd hk he => ?_, fun hctx hsel => ?_, fun hctx hsel => ?_⟩
  · obtain ⟨hpos, hctx⟩ := due_some hd
    rw [hfires hctx, readRecordRule_due (by exact hd) (by exact hk) (by exact he)]
    refine ⟨fun r ctx hrec hlt hnext => ?_, fun r hrec hlast => ?_, fun hpast => ?_⟩
    · rw [readDueRule_before_last hrec hlt hnext, hanswer]
    · rw [readDueRule_last hrec hlast, hanswer]
    · have hrec : e.records[n - 1]? = none := List.getElem?_eq_none (by omega)
      rw [readDueRule_past hrec, emit_cfg, hanswer]
  · rw [hfires (by simp [hctx]), readRecordRule_invalid (by exact hctx),
      emit_selFile, if_pos hsel, emit_cfg, hanswer]
  · rw [hfires (by simp [hctx]), readRecordRule_invalid (by exact hctx),
      emit_selFile, if_neg hsel, emit_cfg, hanswer]

/-! ### GET DATA and generic I-blocks -/

/-- R100: a GET DATA that the table resolves. -/
theorem getDataRule_hit {f : Bytes} {s : State} {g : GetDataEntry}
    (h : findGetData s.cfg (apdu f) = some g) : getDataRule f s = getDataHitRule g f s := by
  simp only [getDataRule, h]

/-- Settles O32: row 9 fires, and the lookup by APDU finds the entry. -/
theorem getDataAnsweredFromTable : Obligations.GetDataAnsweredFromTable := by
  intro ns cla c0 c1 body j g s hr hc ha hj hg hfirst
  have hentry : findGetData s.cfg (cla :: s.cfg.insGetData :: body) = some g :=
    findGetData_eq_some hj hg hfirst
  dsimp only [exec, execGetData, getDataFrame]
  rw [onFrame_fires hr hc (by exact ha), getDataRule_hit (by rw [iFrame_apdu, emit_cfg, hentry]),
    getDataHitRule_eq _ _ _ (iFrame_isIBlock ..)]
  simp [emit_eq]

/-- Settles O33: row 10 fires. -/
theorem iblockSubmitsToOracle : Obligations.IblockSubmitsToOracle := by
  intro ns a c0 c1 s hr hc ha
  dsimp only [exec, execIblock]
  rw [onFrame_fires hr hc (by exact ha), iblockRule_eq, iFrame_apdu]
  simp [emit_eq]

/-! ### The configuration check -/

/-- R95 item 4 holds of every configuration: `E_OK` is the only entry of the repository (R32) that carries a
CRC, and the CRC is right. -/
theorem repository_staticCrcOk (c : Cfg) : (repository c).all staticCrcOk = true := by
  have hraw (p : Bytes) : staticCrcOk (rawEntry p) = true := rfl
  have hatqb : staticCrcOk (entryAtqb c) = true := rfl
  have hok : staticCrcOk entryOk = true := by decide
  simp [repository, hatqb, hok, hraw, entrySel, entryRec, entryFnf, entryNmr, entryGd]

/-- R95 and ruling I5, item by item. -/
theorem cfgWf_iff (c : Cfg) : cfgWf c = true ↔
    c.defaultUid.length = 4 ∧ (∀ u, c.hostUid = some u → u.length = 4) ∧ c.atqbAppData.length = 4
      ∧ (∀ e ∈ c.fileTable, e.fid.length = 2 ∧ e.records.length ≤ 3)
      ∧ (∀ (j k : Nat) (e e' : FileEntry),
        c.fileTable[j]? = some e → c.fileTable[k]? = some e' → e.fid = e'.fid → j = k)
      ∧ ∃ e ∈ c.fileTable, e.fid = [0x3F, 0x04] := by
  simp only [cfgWf, repository_staticCrcOk, Bool.and_eq_true, Bool.and_true, fileIdsDistinct_iff,
    decide_eq_true_eq, List.all_eq_true, List.any_eq_true, beq_iff_eq, Option.all_eq_true]
  exact ⟨fun ⟨⟨⟨⟨⟨hdefault, hhost⟩, happ⟩, hfiles⟩, hroot⟩, hids⟩ =>
      ⟨hdefault, hhost, happ, hfiles, hids, hroot⟩,
    fun ⟨hdefault, hhost, happ, hfiles, hids, hroot⟩ =>
      ⟨⟨⟨⟨⟨hdefault, hhost⟩, happ⟩, hfiles⟩, hroot⟩, hids⟩⟩

/-- R95 item 1: a string of four bytes is an identifier. -/
theorem uidOf?_of_length {b : Bytes} (h : b.length = 4) : ∃ u, uidOf? b = some u := by
  obtain ⟨x0, x1, x2, x3, rfl⟩ := List.length_eq_four.mp h
  exact ⟨_, rfl⟩

/-- R25, R95: an admitted configuration has an identifier, the host's or the default one. -/
theorem sessionUid_of_cfgWf {c : Cfg} (h : cfgWf c = true) : ∃ u, sessionUid c = some u := by
  obtain ⟨hdefault, hhost, -⟩ := (cfgWf_iff c).mp h
  refine uidOf?_of_length ?_
  cases hu : c.hostUid with
  | none => exact hdefault
  | some u => exact hhost u hu

/-- Settles O47: an admitted configuration has an identifier, which is all that creation still needs. -/
theorem illFormedConfigurationRefused : Obligations.IllFormedConfigurationRefused := by
  intro c h
  refine ⟨cfgWf_iff _, fun phyOk encodeOk hwf => ?_, fun phyOk encodeOk hwf => ?_⟩
  · obtain ⟨u, hu⟩ := sessionUid_of_cfgWf hwf
    simp only [initSession, hwf, hu]
    cases phyOk with
    | false => exact ⟨_, rfl⟩
    | true => cases encodeOk <;> exact ⟨_, rfl⟩
  · simp only [initSession, hwf, if_true]

end Sys2Proof.Proofs
end

section
/-! SUPPORT. The WTX wait and the oracle bridge (R104 to R110): the frames, the elapsed budgets and the
replies of a wait, and how many frames each of its steps transmits. -/

namespace Sys2Proof.Proofs

open Sys2Proof Sys2Proof.Machine

/-! ### How many frames a step transmits -/

theorem txCount_append (os os' : List Output) : txCount (os ++ os') = txCount os + txCount os' :=
  List.countP_append

/-- A log entry is no transmission. -/
theorem txCount_logs {os : List Output} (h : ∀ o ∈ os, ∃ l, o = .log l) : txCount os = 0 := by
  refine List.countP_eq_zero.mpr fun o ho => ?_
  obtain ⟨l, rfl⟩ := h o ho
  exact Bool.false_ne_true

/-- R107: the answer transmits one frame, whatever the codec has to log. -/
theorem replyRule_txCount (id : Ident) (p b : Bytes) (s : State) :
    txCount (newOutputs s (replyRule id p b s)) = 1 := by
  rw [newOutputs_append _ _ _ (replyRule_outs id p b s), txCount_append, txCount_append,
    txCount_logs (finalize_logs _ _)]
  rfl

/-- R104 to R107, R113: what an event of a WTX wait transmits. -/
theorem effect_wait_txCount {e : Event} {s t : State} (h : Effect e s t) (hr : s.run = .running)
    (hw : s.cardState = .handleWtx) :
    txCount (newOutputs s t) = if e = .wtxElapsed ∨ t.cardState ≠ .handleWtx then 1 else 0 := by
  have hready (hc : s.cardState = .idle ∨ s.cardState = .halted) : False := by simp [hw] at hc
  cases h with
  | same _ _ hsame =>
    have he : e ≠ .wtxElapsed := by simpa [hr, hw] using hsame
    simp [newOutputs, hw, he, txCount]
  | frameLogged f cls os _ hos =>
    rw [newOutputs_append _ _ _ rfl]
    rcases hos with rfl | rfl <;> simp [hw, txCount, isTx]
  | replyLogged id p l =>
    rw [newOutputs_append _ _ _ rfl]
    simp [hw, txCount, isTx]
  | reply id p b =>
    obtain ⟨n, os, heq⟩ := replyRule_frame id p b s
    rw [replyRule_txCount, if_pos (.inr (by simp [heq]))]
  | elapsed r =>
    rw [newOutputs_append _ _ _ rfl, if_pos (.inl rfl)]
    rfl
  | exit _ reason os _ _ hos he =>
    have hne : e ≠ .wtxElapsed := by rintro rfl; simp at he
    rw [newOutputs_append _ _ _ rfl]
    rcases hos with rfl | rfl <;> simp [hw, hne, txCount, isTx]
  | fieldOn _ hc => simp [hw] at hc
  | ok f path _ _ hc => simp [hw] at hc
  | atqb | reset | selectHit | selectMiss | readRecord | getData | iblock => exact (hready ‹_›).elim

/-- R101: an event that enters the wait is a generic I-block, and transmits the one S(WTX). -/
theorem effect_enters_wait {e : Event} {s t : State} (h : Effect e s t)
    (hs : s.cardState ≠ .handleWtx) (ht : t.cardState = .handleWtx) :
    txCount (newOutputs s t) = 1 ∧ Output.tx (wtxFrame s.cfg) .fresh ∈ newOutputs s t := by
  cases h with
  | iblock f cls =>
    rw [newOutputs_append _ _ _ rfl]
    exact ⟨rfl, by simp⟩
  | same | frameLogged | replyLogged | elapsed | exit => exact absurd ht hs
  | reply id p b r _ hw => exact absurd hw hs
  | _ => cases ht

/-- Settles O40: a step of a wait, or into one, takes an event, and transmits what its effect does. -/
theorem waitTransmitsOncePerDeadline : Obligations.WaitTransmitsOncePerDeadline := by
  refine ⟨fun s t e es _ hr hw hi hs => ?_, fun s t hc hs ht => ?_⟩
  · obtain ⟨hnil, -⟩ | ⟨e', es', d, hi', -, rfl, he⟩ := step_effect hs
    · cases hi.symm.trans hnil
    · cases hi.symm.trans hi'
      rw [encode_decode] at he
      exact effect_wait_txCount (s := { s with inputs := es }) he hr hw
  · obtain rfl | ⟨e, es, -, he⟩ := step_effect_of_event hs
    · exact absurd ht hc
    · exact effect_enters_wait (s := { s with inputs := es }) he hc ht

/-! ### Frames and elapsed budgets during a wait -/

/-- R58: the pattern of the acknowledgement is its format. -/
theorem patWtxack_iff (f : Bytes) : patWtxack f = true ↔ f.length = 4 ∧ f.head? = some 0xF2 := by
  constructor
  · intro hp
    by_contra hno
    exact absurd (hp.symm.trans (fixedPattern_false (by decide) hno)) (by decide)
  · rintro ⟨hl, h0⟩
    simp [patWtxack, hl, byteAt_zero_of_head? h0]

/-- Settles O35: the table is not consulted, and the acknowledgement alone is no error. -/
theorem framesIgnoredDuringWait : Obligations.FramesIgnoredDuringWait := by
  intro f s hr hw
  rw [meaningIsPriorityTable f s, priorityDispatch, onFrame_wait _ hr hw]
  simp only [patWtxack_iff]

/-- Settles O36, by the branch of R105 on the wait. -/
theorem wtxElapsedResends : Obligations.WtxElapsedResends := by
  intro s hr
  dsimp only [exec, execWtxElapsed]
  rw [whenRunning_running hr]
  refine ⟨fun r hw hreq => ?_, fun hc => if_neg ?_⟩
  · simp [hw, hreq, emit_eq]
  · rcases hc with hc | hc | hc <;> simp [hc]

/-! ### Replies of the oracle -/

/-- R107: the reply to a retained I-block is its PCB, the payload and the CRC, and the wait ends. -/
theorem replyRule_eq (id : Ident) (p : Bytes) {b : Bytes} (hi : isIBlock b = true) (s : State) :
    replyRule id p b s = { s with
      cardState := .idle
      req := none
      lastIblock := none
      lastNs := nsOf b
      outs := s.outs ++
        [.log (.reply id p), .log (.trans [.handleWtx, .idle]),
         .tx (crcFrame (byteAt b 0 :: p)) .fresh] } := by
  rw [replyRule, respond_iblock _ _ _ hi]
  simp [State.enter, State.setReq, State.setLastIblock, emit_eq]

/-- Settles O37: the reply is awaited and not empty, and the retained I-block gives the PCB. -/
theorem oracleReplyAnswersReader : Obligations.OracleReplyAnswersReader := by
  intro p b r s hr hw hreq hb hi hp
  rw [← replyRule_eq r.id p hi s]
  dsimp only [exec, execOracleReply]
  rw [whenRunning_running hr]
  simp only [hreq, hw, hb, hp, ne_eq, not_true_eq_false, if_false]

/-- Settles O38: the reply is awaited and empty. -/
theorem emptyReplyKeepsWaiting : Obligations.EmptyReplyKeepsWaiting := by
  intro r s hr hw hreq
  change execOracleReply r.id [] s = .next (s.logError (.emptyReply r.id))
  rw [execOracleReply, whenRunning_running hr]
  simp only [hreq, hw, ne_eq, not_true_eq_false, if_false, if_true]

/-- Settles O39: in both cases no request awaits the reply. -/
theorem strayReplyOnlyLogged : Obligations.StrayReplyOnlyLogged := by
  intro id p s hr h
  change execOracleReply id p s = .next (s.log (.stray id p))
  rw [execOracleReply, whenRunning_running hr]
  rcases h with hnone | ⟨r, hreq, hid⟩
  · simp only [hnone]
  · simp only [hreq, if_pos hid]

end Sys2Proof.Proofs
end

section
/-! SUPPORT. The events that end a run (R113), and the errors a step logs (R112). -/

namespace Sys2Proof.Proofs

open Sys2Proof Sys2Proof.Machine

/-! ### Terminating events -/

/-- Settles O42: the meaning of each terminating event is the exit, after the PHY's error for a PHY
failure. -/
theorem terminationSetsReason : Obligations.TerminationSetsReason := by
  intro s hr
  dsimp only [exec, execAbort, execNoFieldTimeout, execPhyFail]
  simp only [whenRunning_running hr, terminate_eq, phyFailure_eq, abortReason, and_self]

/-! ### The errors a step logs -/

/-- R112: the fatal error is the one of code 2. -/
theorem errorFatal_iff (e : ErrorEntry) : errorFatal e = true ↔ errorCode e = 2 := by
  cases e <;> simp [errorFatal, errorCode]

/-- An output that, if it logs an error, logs a fatal one exactly if `P` holds. -/
def ErrorFatalIff (P : Prop) (o : Output) : Prop :=
  ∀ x, o = .log (.error x) → (errorFatal x = true ↔ P)

/-- R75: the one error the codec logs is code 5. -/
theorem finalize_errors (e : ResponseEntry) (f : Bytes) :
    ∀ o ∈ (finalize e f).2, o = .log (.error (.unknownPcb f)) := by
  unfold finalize pcbStep
  split
  · simp
  · split <;> simp

/-- R112, R113: what an effect logs on a running machine is a fatal error exactly if the machine is then
terminated. Only the effect of a terminating event ends the run, and a PHY failure is the one that logs an
error. -/
theorem effect_errors {e : Event} {s t : State} (h : Effect e s t) (hr : s.run = .running) :
    Appends (ErrorFatalIff (∃ reason, t.run = .terminated reason)) s t := by
  cases h with
  | same => exact appends_refl _ _
  | frameLogged f cls os _ hos =>
    exact ⟨_, rfl, by rcases hos with rfl | rfl <;> simp [ErrorFatalIff, hr, errorFatal]⟩
  | replyLogged id p l _ hl =>
    exact ⟨_, rfl, by rcases hl with rfl | ⟨rfl, -⟩ <;> simp [ErrorFatalIff, hr, errorFatal]⟩
  | reply id p b =>
    obtain ⟨n, os, heq⟩ := replyRule_frame id p b s
    have hrun : (replyRule id p b s).run = .running := by rw [heq, hr]
    refine ⟨_, replyRule_outs id p b s, ?_⟩
    simp only [List.forall_mem_append, hrun]
    refine ⟨by simp [ErrorFatalIff], fun o ho => ?_, by simp [ErrorFatalIff]⟩
    simp [finalize_errors _ _ o ho, ErrorFatalIff, errorFatal]
  | exit _ reason os _ _ hos =>
    exact ⟨_, rfl, by rcases hos with rfl | rfl <;> simp [ErrorFatalIff, errorFatal]⟩
  | _ => exact ⟨_, rfl, by simp [ErrorFatalIff, hr, errorFatal]⟩

/-- Settles O17: a step of a running machine logs what the effect of its event does, and a step of a
terminated one logs nothing. -/
theorem errorCodesAreNumbered : Obligations.ErrorCodesAreNumbered := by
  refine ⟨fun _ _ _ _ => ⟨rfl, rfl, rfl, rfl, rfl⟩, errorFatal_iff, fun s t x hs hmem => ?_⟩
  by_cases hr : s.run = .running
  · obtain rfl | ⟨e, es, -, he⟩ := step_effect_of_event hs
    · simp [newOutputs] at hmem
    · exact newOutputs_of_appends (s := { s with inputs := es }) (effect_errors he hr) _ hmem x rfl
  · simp [newOutputs, step_terminated_outs hr hs] at hmem

end Sys2Proof.Proofs
end

section
/-! SUPPORT. The outputs emitted so far: no instruction reads them (R119), so earlier outputs only stand in
front of the ones it appends. -/

namespace Sys2Proof.Proofs

open Sys2Proof Sys2Proof.Machine

/-! ### The output stream is not read back -/

/-- The state with these outputs emitted before its own. -/
def after (o : List Output) (s : State) : State := { s with outs := o ++ s.outs }

@[simp] theorem after_cfg (o : List Output) (s : State) : (after o s).cfg = s.cfg := rfl
@[simp] theorem after_cardState (o : List Output) (s : State) :
    (after o s).cardState = s.cardState := rfl
@[simp] theorem after_fileContext (o : List Output) (s : State) :
    (after o s).fileContext = s.fileContext := rfl
@[simp] theorem after_selFile (o : List Output) (s : State) : (after o s).selFile = s.selFile := rfl
@[simp] theorem after_lastIblock (o : List Output) (s : State) :
    (after o s).lastIblock = s.lastIblock := rfl
@[simp] theorem after_req (o : List Output) (s : State) : (after o s).req = s.req := rfl
@[simp] theorem after_nextId (o : List Output) (s : State) : (after o s).nextId = s.nextId := rfl
@[simp] theorem after_prep (o : List Output) (s : State) : (after o s).prep = s.prep := rfl

/-! The register writes and the outputs of the rules commute with `after`. -/

@[simp] theorem after_enter (o : List Output) (s : State) (v : CardState) :
    (after o s).enter v = after o (s.enter v) := rfl
@[simp] theorem after_setRun (o : List Output) (s : State) (v : RunStatus) :
    (after o s).setRun v = after o (s.setRun v) := rfl
@[simp] theorem after_setActive (o : List Output) (s : State) (v : Bool) :
    (after o s).setActive v = after o (s.setActive v) := rfl
@[simp] theorem after_setFileContext (o : List Output) (s : State) (v : FileContext) :
    (after o s).setFileContext v = after o (s.setFileContext v) := rfl
@[simp] theorem after_setSelFile (o : List Output) (s : State) (v : Option Nat) :
    (after o s).setSelFile v = after o (s.setSelFile v) := rfl
@[simp] theorem after_setLastNs (o : List Output) (s : State) (v : Bit) :
    (after o s).setLastNs v = after o (s.setLastNs v) := rfl
@[simp] theorem after_setLastIblock (o : List Output) (s : State) (v : Option Bytes) :
    (after o s).setLastIblock v = after o (s.setLastIblock v) := rfl
@[simp] theorem after_setReq (o : List Output) (s : State) (v : Option Request) :
    (after o s).setReq v = after o (s.setReq v) := rfl
@[simp] theorem after_setNextId (o : List Output) (s : State) (v : Ident) :
    (after o s).setNextId v = after o (s.setNextId v) := rfl
@[simp] theorem after_emitAll (o : List Output) (s : State) (os : List Output) :
    (after o s).emitAll os = after o (s.emitAll os) := by
  simp [after, State.emitAll]
@[simp] theorem after_emit (o : List Output) (s : State) (x : Output) :
    (after o s).emit x = after o (s.emit x) := after_emitAll o s [x]

/-- R82: the condition under which `respond` records N(S) is about the entry and the frame. -/
@[simp] theorem after_respond (o : List Output) (s : State) (e : ResponseEntry) (f : Bytes) :
    (after o s).respond e f = after o (s.respond e f) := by
  unfold State.respond State.recordNs
  dsimp only
  split <;> simp

/-- The answer with these outputs emitted before those of the next state, if there is one. -/
def answerAfter (o : List Output) : Result → Result
  | .next t => .next (after o t)
  | .fault r => .fault r
  | .refused r => .refused r

/-- A rule that does not read the outputs emitted so far, and only appends to them. -/
def OutputsBlind (k : State → Result) : Prop :=
  ∀ o, Function.Semiconj k (after o) (answerAfter o)

theorem outputsBlind_next {g : State → State} (h : ∀ o, Function.Commute g (after o)) :
    OutputsBlind fun s => .next (g s) :=
  fun o s => congrArg _ (h o s)

theorem outputsBlind_ite {c : State → Prop} [∀ s, Decidable (c s)] {a b : State → Result}
    (hc : ∀ o s, c (after o s) ↔ c s) (ha : OutputsBlind a) (hb : OutputsBlind b) :
    OutputsBlind fun s => if c s then a s else b s := by
  intro o s
  simp only [hc o s, (ha o).eq s, (hb o).eq s, apply_ite (answerAfter o)]

/-- R85, first line: the run check reads `run` only. -/
theorem outputsBlind_whenRunning {k : State → Result} (h : OutputsBlind k) :
    OutputsBlind fun s => whenRunning s k :=
  outputsBlind_ite (fun _ _ => Iff.rfl) h (outputsBlind_next fun _ _ => rfl)

/-! The rules of the table and of the wait, one by one. -/

theorem unrecognisedRule_after (cls : FrameClass) (f : Bytes) (o : List Output) :
    Function.Commute (unrecognisedRule cls f) (after o) := fun s => by
  simp [unrecognisedRule]

theorem waitRule_after (cls : FrameClass) (f : Bytes) (o : List Output) :
    Function.Commute (waitRule cls f) (after o) := fun s => by
  unfold waitRule
  split <;> simp

theorem wupbRule_after (o : List Output) : Function.Commute wupbRule (after o) := fun s => by
  simp [wupbRule]

theorem reqbRule_after (o : List Output) : Function.Commute reqbRule (after o) := fun s => by
  simp [reqbRule]

theorem attribRule_after (o : List Output) : Function.Commute attribRule (after o) := fun s => by
  simp [attribRule]

theorem resetRule_after (o : List Output) : Function.Commute resetRule (after o) := fun s => by
  simp [resetRule]

/-- R97, R98. -/
theorem selectRule_after (f : Bytes) (o : List Output) :
    Function.Commute (selectRule f) (after o) := fun s => by
  unfold selectRule
  cases fid? f with
  | none => simp [selectMissRule]
  | some id =>
    dsimp only [after_cfg]
    cases fileAt s.cfg id with
    | none => simp [selectMissRule]
    | some ke => simp [selectHitRule]

theorem readRecordAnswer_after (e : ResponseEntry) (ctx : FileContext) (f : Bytes)
    (o : List Output) : Function.Commute (readRecordAnswer e ctx f) (after o) := fun s => by
  simp [readRecordAnswer]

theorem iblockRule_after (f : Bytes) (o : List Output) :
    Function.Commute (iblockRule f) (after o) := fun s => by
  simp [iblockRule]

/-- R100: an APDU that is no key of the table is delegated. -/
theorem getDataRule_after (f : Bytes) (o : List Output) :
    Function.Commute (getDataRule f) (after o) := fun s => by
  unfold getDataRule
  dsimp only [after_cfg]
  cases findGetData s.cfg (apdu f) with
  | none => exact iblockRule_after f o s
  | some g => simp [getDataHitRule]

theorem replyRule_after (id : Ident) (p b : Bytes) (o : List Output) :
    Function.Commute (replyRule id p b) (after o) := fun s => by
  simp [replyRule]

/-- R113. -/
theorem terminate_after (reason : ExitReason) (o : List Output) :
    Function.Commute (State.terminate · reason) (after o) := fun s => by
  simp [State.terminate]

theorem phyFailure_after (o : List Output) : Function.Commute State.phyFailure (after o) := fun s => by
  simp [State.phyFailure, State.terminate]

/-- R99 with a record due. -/
theorem outputsBlind_readDueRule (n : Nat) (e : FileEntry) (f : Bytes) :
    OutputsBlind (readDueRule n e f) := by
  intro o s
  unfold readDueRule
  simp only [after_cfg, (readRecordAnswer_after _ _ f o).eq s]
  split
  · rfl
  · split
    · split <;> rfl
    · rfl

/-- R99. -/
theorem outputsBlind_readRecordRule (f : Bytes) : OutputsBlind (readRecordRule f) := by
  intro o s
  unfold readRecordRule
  simp only [after_cfg, after_fileContext, after_selFile, (readRecordAnswer_after _ _ f o).eq s]
  split
  · rfl
  · split
    · rfl
    · exact outputsBlind_readDueRule _ _ f o s

/-- R65: no row's rule reads the outputs. -/
theorem outputsBlind_rowRule (r cls : FrameClass) (f : Bytes) : OutputsBlind (rowRule r cls f) := by
  cases r with
  | wupb => exact outputsBlind_next wupbRule_after
  | reqb => exact outputsBlind_next reqbRule_after
  | attrib => exact outputsBlind_next attribRule_after
  | reset => exact outputsBlind_next resetRule_after
  | wtxack | halt | unknown => exact outputsBlind_next (unrecognisedRule_after cls f)
  | select => exact outputsBlind_next (selectRule_after f)
  | readRecord => exact outputsBlind_readRecordRule f
  | getData => exact outputsBlind_next (getDataRule_after f)
  | iblock => exact outputsBlind_next (iblockRule_after f)

/-- R65: the guards of the table do not read the outputs. -/
theorem rowGuard_after (r : FrameClass) (o : List Output) (s : State) :
    rowGuard r (after o s) = rowGuard r s := by
  cases r <;> rfl

theorem outputsBlind_firstRow (rs : List FrameClass) (cls : FrameClass) (f : Bytes) :
    OutputsBlind (firstRow rs cls f) := by
  intro o s
  unfold firstRow
  simp only [after_cfg, rowGuard_after]
  split
  next r _ => exact outputsBlind_rowRule r cls f o s
  next => exact outputsBlind_next (unrecognisedRule_after cls f) o s

/-- R85: the dispatch of a frame reads the outputs only if its rows do. -/
theorem outputsBlind_onFrame {k : State → Result} (hk : OutputsBlind k) (cls : FrameClass) (f : Bytes) :
    OutputsBlind fun s => onFrame cls f s k := by
  refine outputsBlind_whenRunning fun o s => ?_
  simp only [after_cardState, log_eq_emit, after_emit]
  cases s.cardState with
  | noField => exact outputsBlind_next (unrecognisedRule_after cls f) o _
  | handleWtx => exact outputsBlind_next (waitRule_after cls f) o _
  | idle | halted => exact hk o _
  | _ => rfl

/-- R86. -/
theorem outputsBlind_fieldOn : OutputsBlind execFieldOn :=
  outputsBlind_whenRunning (outputsBlind_ite (fun _ _ => Iff.rfl)
    (outputsBlind_next fun _ _ => by simp) (outputsBlind_next fun _ _ => rfl))

/-- R107 to R109. -/
theorem outputsBlind_oracleReply (id : Ident) (p : Bytes) : OutputsBlind (execOracleReply id p) := by
  refine outputsBlind_whenRunning fun o s => ?_
  simp only [after_req, after_cardState, after_lastIblock, log_eq_emit, logError_eq_emit, after_emit]
  cases s.req with
  | none => rfl
  | some r =>
    simp only [apply_ite (answerAfter o)]
    cases s.lastIblock with
    | none => rfl
    | some b => simp only [(replyRule_after id p b o).eq s, answerAfter]

/-- R105, R106. -/
theorem outputsBlind_wtxElapsed : OutputsBlind execWtxElapsed := by
  refine outputsBlind_whenRunning (outputsBlind_ite (fun _ _ => Iff.rfl) (fun o s => ?_)
    (outputsBlind_next fun _ _ => rfl))
  dsimp only [after_req]
  cases s.req with
  | none => rfl
  | some r => simp [answerAfter]

/-- R119: no instruction reads the outputs emitted so far. A frame's instruction is the dispatch of its row's
rule under the row's guard, and of what is left of the table otherwise (R65). -/
theorem outputsBlind_exec (i : Instr) : OutputsBlind (exec i) := by
  intro o s
  cases i with
  | wupb =>
    dsimp only [exec, execWupb]
    refine outputsBlind_onFrame ?_ _ _ o s
    exact outputsBlind_ite (fun _ _ => Iff.rfl) (outputsBlind_next wupbRule_after)
      (outputsBlind_next (unrecognisedRule_after _ _))
  | reqb =>
    dsimp only [exec, execReqb]
    refine outputsBlind_onFrame ?_ _ _ o s
    exact outputsBlind_ite (fun _ _ => Iff.rfl) (outputsBlind_next reqbRule_after)
      (outputsBlind_next (unrecognisedRule_after _ _))
  | attrib =>
    dsimp only [exec, execAttrib]
    refine outputsBlind_onFrame ?_ _ _ o s
    exact outputsBlind_ite (fun _ _ => Iff.rfl) (outputsBlind_next attribRule_after)
      (outputsBlind_firstRow _ _ _)
  | reset =>
    dsimp only [exec, execReset]
    exact outputsBlind_onFrame (outputsBlind_next resetRule_after) _ _ o s
  | wtxack | halt | unrecognised =>
    dsimp only [exec, execWtxack, execHalt, execUnrecognised]
    exact outputsBlind_onFrame (outputsBlind_next (unrecognisedRule_after _ _)) _ _ o s
  | select =>
    dsimp only [exec, execSelect]
    refine outputsBlind_onFrame ?_ _ _ o s
    exact outputsBlind_ite (fun _ _ => Iff.rfl) (outputsBlind_next (selectRule_after _))
      (outputsBlind_firstRow _ _ _)
  | readRecord =>
    dsimp only [exec, execReadRecord]
    refine outputsBlind_onFrame ?_ _ _ o s
    exact outputsBlind_ite (fun _ _ => Iff.rfl) (outputsBlind_readRecordRule _)
      (outputsBlind_firstRow _ _ _)
  | getData =>
    dsimp only [exec, execGetData]
    refine outputsBlind_onFrame ?_ _ _ o s
    exact outputsBlind_ite (fun _ _ => Iff.rfl) (outputsBlind_next (getDataRule_after _))
      (outputsBlind_firstRow _ _ _)
  | iblock =>
    dsimp only [exec, execIblock]
    refine outputsBlind_onFrame ?_ _ _ o s
    exact outputsBlind_ite (fun _ _ => Iff.rfl) (outputsBlind_next (iblockRule_after _))
      (outputsBlind_next (unrecognisedRule_after _ _))
  | fieldOn => exact outputsBlind_fieldOn o s
  | rxNone => exact outputsBlind_whenRunning (outputsBlind_next (g := id) fun _ _ => rfl) o s
  | oracleReply id p => exact outputsBlind_oracleReply id p o s
  | wtxElapsed => exact outputsBlind_wtxElapsed o s
  | noFieldTimeout | abort =>
    exact outputsBlind_whenRunning (outputsBlind_next (terminate_after _)) o s
  | phyFail => exact outputsBlind_whenRunning (outputsBlind_next phyFailure_after) o s

/-- Settles O59: the outputs `o` stand in front of none, and then in front of those of the next state. -/
theorem outputsNeverReadBack : Obligations.OutputsNeverReadBack := by
  intro i s t o h
  have hb := outputsBlind_exec i o { s with outs := [] }
  rw [h] at hb
  simpa [after, answerAfter] using hb

end Sys2Proof.Proofs
end

section
/-! SUPPORT. What session creation answers under an admitted configuration: PHY setup failed, pre-encoding
failed, or a new session (R126). -/

namespace Sys2Proof.Proofs

open Sys2Proof Sys2Proof.Machine

/-! ### The identifier -/

/-- R25: an identifier read out of a byte string has that string's bytes. -/
theorem uidBytes_of_uidOf? {b : Bytes} {u : Uid} (h : uidOf? b = some u) : uidBytes u = b := by
  unfold uidOf? at h
  split at h
  next => cases h; rfl
  next => cases h

/-! ### The outcomes of R126 for an admitted configuration -/

section

variable {c : Cfg} {h : Option Bytes} {u : Uid}

/-- R126: an admitted configuration with an identifier leaves only the PHY's two answers open. -/
theorem initSession_admitted (hwf : cfgWf { c with hostUid := h } = true)
    (hu : sessionUid { c with hostUid := h } = some u) (phyOk encodeOk : Bool) :
    initSession c h phyOk encodeOk = some
      (if phyOk = false then
        { State.session { c with hostUid := h } u with prep := unprepared }.terminate .phySetupFail
      else if encodeOk = false then (State.session { c with hostUid := h } u).phyFailure
      else State.session { c with hostUid := h } u) := by
  simp only [initSession, hwf, hu, apply_ite some, Bool.true_eq_false, if_false]

/-- R126: PHY setup fails, so pre-encoding is not asked. -/
theorem initSession_phySetupFail (hwf : cfgWf { c with hostUid := h } = true)
    (hu : sessionUid { c with hostUid := h } = some u) (encodeOk : Bool) :
    initSession c h false encodeOk = some
      { State.session { c with hostUid := h } u with
        prep := unprepared, run := .terminated .phySetupFail,
        outs := [.log (.exit .phySetupFail)] } := by
  rw [initSession_admitted hwf hu, if_pos rfl, terminate_eq]
  rfl

/-- R126: pre-encoding fails, which is a PHY failure with the frames of R96 in place. -/
theorem initSession_encodeFail (hwf : cfgWf { c with hostUid := h } = true)
    (hu : sessionUid { c with hostUid := h } = some u) :
    initSession c h true false = some
      { State.session { c with hostUid := h } u with
        run := .terminated .phyFail,
        outs := [.log (.error .phyEncodeFail), .log (.exit .phyFail)] } := by
  rw [initSession_admitted hwf hu, if_neg Bool.noConfusion, if_pos rfl, phyFailure_eq]
  rfl

/-- R126: both succeed, and the session is the one R37 describes. -/
theorem initSession_created (hwf : cfgWf { c with hostUid := h } = true)
    (hu : sessionUid { c with hostUid := h } = some u) :
    initSession c h true true = some (State.session { c with hostUid := h } u) := by
  rw [initSession_admitted hwf hu, if_neg Bool.noConfusion, if_neg Bool.noConfusion]

end

/-! ### Session creation -/

/-- Settles O46, outcome by outcome: a refusal is O47's, and the identifier of an admitted configuration is read
out of the bytes of R25, which the check has found to be four. -/
theorem sessionCreationOutcomes : Obligations.SessionCreationOutcomes := by
  intro c h
  obtain ⟨-, -, hrefused⟩ := illFormedConfigurationRefused c h
  refine ⟨fun hwf phyOk encodeOk => hrefused phyOk encodeOk hwf, fun hwf => ?_⟩
  obtain ⟨u, hu⟩ := sessionUid_of_cfgWf hwf
  exact ⟨u, uidBytes_of_uidOf? hu, initSession_created hwf hu,
    fun encodeOk => ⟨unprepared, initSession_phySetupFail hwf hu encodeOk⟩,
    initSession_encodeFail hwf hu⟩

/-- Settles O45: the reset configuration passes its check, and without a host UID its identifier is the default
one. -/
theorem resetIsSessionCreation : Obligations.ResetIsSessionCreation :=
  initSession_created (by decide) rfl

end Sys2Proof.Proofs
end
